-- ==== Sys2Proof/Word.lean ====
section
/-! DEFINITION. The word types of the sequencer's ports and the two logic levels (spec/00_scope.md R10, R19). -/

namespace Sys2Proof

/-- One byte on the serial bus, one table entry, one index register (R80, R114). -/
abbrev Byte := BitVec 8

/-- One command word on the host command port (R100). -/
abbrev CommandWord := BitVec 64

/-- One result word on the host result port (R107). -/
abbrev ResultWord := BitVec 40

/-- A logic level (R19). The ready line and chip-select are asserted when `low`. -/
inductive Level where
  | low
  | high
  deriving DecidableEq, Repr, Inhabited

end Sys2Proof
end

