-- ==== Sys2Proof/Config.lean ====
section
/-! DEFINITION. The parameters of spec/00_scope.md R8 and R9, and the free values of the environment (R14).
Parameters with a default of the spec are constants here (log 7). Parameters without one are fields of `Params`, which State
holds unchanged (R9), or free values (log 6). -/

namespace Sys2Proof

/-- The reset mechanism selected at construction (R8, R173). `none` stands for "no valid pin". -/
inductive ResetStrategy where
  | none
  | controlPin
  | clockPin
  deriving DecidableEq, Repr, Inhabited

/-- The comparison at a wait's deadline (R8, R143): both values are admitted. -/
inductive WaitCmp where
  | ge
  | gt
  deriving DecidableEq, Repr, Inhabited

/-- Which input a bounded wait samples next (R143: "in either order, or with either one left out of a round"). -/
inductive Sample where
  | readyLine
  | clock
  deriving DecidableEq, Repr, Inhabited

/-- The pin assignments of an instance (R9, 93 U26): the platform's name of the pin each owned line stands on (60_exceptions R320,
R322). A name is a number the block never computes with (DESIGN CHOICE, log 26). -/
structure Pins where
  /-- The ready line `DRDY`, an input. -/
  drdy : Nat
  /-- The chip-select line `CS`. -/
  cs   : Nat
  /-- The reset line `RST`, or with the clock-pin strategy the bus clock driven by hand (R320). Without a reset method it names no valid
  pin (R173), and nothing is driven. -/
  rst  : Nat
  /-- The synchronize line `SYNC`. -/
  sync : Nat
  deriving DecidableEq, Repr, Inhabited

/-- The construction constants without a default in the spec (R8, R9). -/
structure Params where
  /-- `N`, the channel count, 8 bits wide as selector `0x0C` returns it (R8, R51). -/
  n             : BitVec 8
  resetStrategy : ResetStrategy
  waitCmp       : WaitCmp
  /-- `DONT_CARE`, the byte clocked out during reads (R8, R191). -/
  dontCare      : Byte
  /-- The pin assignments (R9). -/
  pins          : Pins
  /-- The bus handle (R9, R330): which serial bus the instance was given (DESIGN CHOICE: a number, log 26). -/
  bus           : Nat
  deriving DecidableEq, Repr

namespace Config

/-- `SENTINEL`, "no valid index" (R8, R114). -/
def sentinel : BitVec 8 := 0xFF

/-- `CMD_WREG`, OR-ed with a register address (R8, R120). -/
def cmdWreg : Byte := 0x50
/-- `CMD_RREG`, OR-ed with a register address (R8, R121). -/
def cmdRreg : Byte := 0x10
/-- `CMD_SYNC` (R8, R122). -/
def cmdSync : Byte := 0xFC
/-- `CMD_WAKEUP` (R8, R122). -/
def cmdWakeup : Byte := 0x00
/-- `CMD_RDATA` (R8, R122). -/
def cmdRdata : Byte := 0x01

/-- `REG_STATUS` (R8, R75). -/
def regStatus : BitVec 4 := 0
/-- `REG_MUX` (R8, R75). -/
def regMux : BitVec 4 := 1
/-- `REG_ADCON` (R8, R75). -/
def regAdcon : BitVec 4 := 2
/-- `REG_DRATE` (R8, R75). -/
def regDrate : BitVec 4 := 3

/-- `MASK_STATUS` (R8, R212). -/
def maskStatus : Byte := 0x0E
/-- `MASK_MUX` (R8, R212). -/
def maskMux : Byte := 0xFF
/-- `MASK_ADCON` (R8, R212). -/
def maskAdcon : Byte := 0x7F
/-- `MASK_DRATE` (R8, R212). -/
def maskDrate : Byte := 0xFF

/-- FREE VALUE. What `Drdy()` returns at the k-th draw when no sample is pending at the port (R14, 93 U10; log 1). -/
opaque freeReady : Nat → Level

/-- FREE VALUE. How far the millisecond clock has moved since the last reading, at the k-th draw (R74, 93 U11; log 1, 2). -/
opaque freeTick : Nat → Nat

/-- FREE VALUE. The byte clocked in at the k-th draw (R14, 93 U9; log 1). -/
opaque freeByte : Nat → Byte

/-- FREE VALUE. Which input a bounded wait samples at the k-th draw (R143, 93 U14; log 3). -/
opaque freeSample : Nat → Sample

/-- FREE VALUE. How many more rounds a wait or polling loop may take, at the k-th draw (R143 "any finite number of rounds";
log 4). -/
opaque freeLength : Nat → Nat

/-- FREE VALUE. `WAIT_CMP` of the machine after reset (R143, 93 U13; log 6). -/
opaque waitCmp : WaitCmp

/-- FREE VALUE. `DONT_CARE` of the machine after reset (R191, 93 U12; log 6). -/
opaque dontCare : Byte

/-- FREE VALUE. The pin assignments of the machine after reset (R9, 93 U26; log 26). -/
opaque pins : Pins

/-- FREE VALUE. The bus handle of the machine after reset (R9; log 26). -/
opaque bus : Nat

/-- FREE VALUE. What a table read beyond the table would give. R44 rules such a read out (log 17). -/
opaque outOfTable : Nat → Byte

end Config

end Sys2Proof
end

