-- ==== Sys2Proof/Syntax.lean ====
section
/-! DEFINITION. The instructions: the fourteen host operations (spec/30_encoding.md R105) and the five bus commands
(R120 to R122) of spec/opcode_table.json, one constructor a row (R3). -/

namespace Sys2Proof

/-- One instruction (R3). The first fourteen are host operations, the last five bus commands. -/
inductive Instr where
  /-- `BEGIN_RESET` (R170). -/
  | beginReset
  /-- `BEGIN_WRITE_SETTINGS timeout` (R213). -/
  | beginWriteSettings (timeout : BitVec 32)
  /-- `READ_SETTINGS update_local timeout` (R215). -/
  | readSettings (updateLocal : BitVec 1) (timeout : BitVec 32)
  /-- `BEGIN_CAPTURE timeout` (R230). -/
  | beginCapture (timeout : BitVec 32)
  /-- `CONTINUE_CAPTURE` (R243). -/
  | continueCapture
  /-- `END_CAPTURE` (R245). -/
  | endCapture
  /-- `UPDATE` (R240). -/
  | update
  /-- `BLOCKING_INIT timeout` (R260). -/
  | blockingInit (timeout : BitVec 32)
  /-- `RDREG sel` (R270). -/
  | rdreg (sel : BitVec 8)
  /-- `WRREG sel val` (R271). -/
  | wrreg (sel : BitVec 8) (val : BitVec 8)
  /-- `RDCHAN idx` (R272). -/
  | rdchan (idx : BitVec 8)
  /-- `WRCHAN idx val` (R273). -/
  | wrchan (idx : BitVec 8) (val : BitVec 8)
  /-- `RDRES idx` (R274). -/
  | rdres (idx : BitVec 8)
  /-- `TAKE_NEW_DATA` (R275). -/
  | takeNewData
  /-- `WREG r n` and the `n + 1` value bytes that follow its header (R120, R192). -/
  | wreg (r : BitVec 4) (n : BitVec 4) (values : List Byte)
  /-- `RREG r n` (R121, R193). -/
  | rreg (r : BitVec 4) (n : BitVec 4)
  /-- `SYNC` (R122, R194). -/
  | sync
  /-- `WAKEUP` (R122, R195). -/
  | wakeup
  /-- `RDATA` (R122, R196). -/
  | rdata
  deriving DecidableEq, Repr

/-- What stands at the point where the machine takes its next instruction: a command word on the host command port (R100), or
the bytes of one bus command (R120 to R123; log 11). -/
inductive Command where
  | host (w : CommandWord)
  | bus (bytes : List Byte)
  deriving DecidableEq, Repr

end Sys2Proof
end

