-- ==== Sys2Proof/WellFormed.lean ====
section
/-! DEFINITION. Which terms of `Instr` stand for an instruction the spec encodes. Every operand is a bit vector of its field's
width, so the one thing left to check is the number of value bytes of `WREG` (spec/30_encoding.md R120). The value checks of
R117 and R118 (c) to (f) come after decoding (R106) and stand in the meanings. -/

namespace Sys2Proof

/-- `WREG r n` is followed by exactly `n + 1` value bytes (R120, R123). A register block past address 15 is well-formed (DESIGN CHOICE,
log 25). -/
def Instr.wellFormed : Instr → Bool
  | .wreg _ n values => values.length == n.toNat + 1
  | .beginReset | .beginWriteSettings _ | .readSettings _ _ | .beginCapture _ | .continueCapture | .endCapture | .update
  | .blockingInit _ | .rdreg _ | .wrreg _ _ | .rdchan _ | .wrchan _ _ | .rdres _ | .takeNewData | .rreg _ _ | .sync
  | .wakeup | .rdata => true

end Sys2Proof
end

