-- ==== Sys2Proof/Decode.lean ====
section
/-! DEFINITION. Decoding of host command words (spec/30_encoding.md R100 to R106) and of bus commands (R120 to R123), the
encoder, the rows of spec/opcode_table.json, and the host pipeline's entry `decodeTableWord`. -/

namespace Sys2Proof

/-- Why bits are no instruction. -/
inductive DecodeError where
  /-- The opcode is not in the table of R105 (R118 (a)). -/
  | reservedOpcode
  /-- A must-be-zero field is not zero (R102, R118 (b)). -/
  | reservedField
  /-- The first byte is none of the five bus commands (R123, R197). -/
  | unknownBusCommand
  /-- Bits 7 to 4 of the count byte are not zero (R120). -/
  | reservedCountBits
  /-- The bytes end before the command does (R123). -/
  | busTruncated
  /-- Bytes are left after the command (R123). -/
  | busTrailing
  deriving DecidableEq, Repr

/-! ## Fields of the command word (R100, R101) -/

/-- `OPC`, bits 63 to 56. -/
def opcOf (w : CommandWord) : BitVec 8 := w.extractLsb' 56 8
/-- `A`, bits 55 to 48. -/
def aOf (w : CommandWord) : BitVec 8 := w.extractLsb' 48 8
/-- `B`, bits 47 to 40. -/
def bOf (w : CommandWord) : BitVec 8 := w.extractLsb' 40 8
/-- `RSV`, bits 39 to 32. -/
def rsvOf (w : CommandWord) : BitVec 8 := w.extractLsb' 32 8
/-- `T`, bits 31 to 0. -/
def tOf (w : CommandWord) : BitVec 32 := w.extractLsb' 0 32

/-- The command word with the given fields and `RSV = 0` (R100). -/
def hostWord (opc a b : BitVec 8) (t : BitVec 32) : CommandWord := opc ++ a ++ b ++ (0 : BitVec 8) ++ t

/-- `update_local = B[0]` (R101) as the byte `B`. -/
def updateLocalByte (u : BitVec 1) : BitVec 8 := (0 : BitVec 7) ++ u

/-! ## Host command words -/

/-- Accept `i` when the fields that must be zero are zero (R106). -/
def acceptIf (zero : Bool) (i : Instr) : Except DecodeError Instr :=
  if zero then .ok i else .error .reservedField

/-- `Decode(w)` (R102, R105, R106): total on every 64-bit word. -/
def decodeHost (w : CommandWord) : Except DecodeError Instr :=
  let a := aOf w
  let b := bOf w
  let r := rsvOf w == 0
  let t := tOf w
  match (opcOf w).toNat with
  | 0x01 => acceptIf (a == 0 && b == 0 && r && t == 0) .beginReset
  | 0x02 => acceptIf (a == 0 && b == 0 && r) (.beginWriteSettings t)
  | 0x03 => acceptIf (a == 0 && b.extractLsb' 1 7 == 0 && r) (.readSettings (b.extractLsb' 0 1) t)
  | 0x04 => acceptIf (a == 0 && b == 0 && r) (.beginCapture t)
  | 0x05 => acceptIf (a == 0 && b == 0 && r && t == 0) .continueCapture
  | 0x06 => acceptIf (a == 0 && b == 0 && r && t == 0) .endCapture
  | 0x07 => acceptIf (a == 0 && b == 0 && r && t == 0) .update
  | 0x08 => acceptIf (a == 0 && b == 0 && r) (.blockingInit t)
  | 0x10 => acceptIf (b == 0 && r && t == 0) (.rdreg a)
  | 0x11 => acceptIf (r && t == 0) (.wrreg a b)
  | 0x12 => acceptIf (b == 0 && r && t == 0) (.rdchan a)
  | 0x13 => acceptIf (r && t == 0) (.wrchan a b)
  | 0x14 => acceptIf (b == 0 && r && t == 0) (.rdres a)
  | 0x15 => acceptIf (a == 0 && b == 0 && r && t == 0) .takeNewData
  | _ => .error .reservedOpcode

/-! ## Bus commands -/

/-- The first byte of `WREG` and `RREG`: base byte OR register address (R120, R121). -/
def regCommandByte (base : Byte) (r : BitVec 4) : Byte := base ||| r.setWidth 8

/-- The count byte: register count minus one, bits 7 to 4 zero (R120). -/
def countByte (n : BitVec 4) : Byte := n.setWidth 8

/-- The register address in a command byte, bits 3 to 0 (R120). -/
def regOf (b : Byte) : BitVec 4 := b.extractLsb' 0 4

/-- One bus command read off a list of bytes, with the bytes that follow it (R123). A `WREG` or `RREG` with `r + n + 1 > 16` decodes as any
other (DESIGN CHOICE, log 25). -/
def decodeBus (bytes : List Byte) : Except DecodeError (Instr × List Byte) :=
  match bytes with
  | [] => .error .busTruncated
  | b0 :: rest =>
    if b0 = Config.cmdSync then .ok (.sync, rest)
    else if b0 = Config.cmdWakeup then .ok (.wakeup, rest)
    else if b0 = Config.cmdRdata then .ok (.rdata, rest)
    else if b0 = regCommandByte Config.cmdWreg (regOf b0) then
      match rest with
      | [] => .error .busTruncated
      | b1 :: values =>
        if b1.extractLsb' 4 4 ≠ 0 then .error .reservedCountBits
        else if values.length < (regOf b1).toNat + 1 then .error .busTruncated
        else .ok (.wreg (regOf b0) (regOf b1) (values.take ((regOf b1).toNat + 1)), values.drop ((regOf b1).toNat + 1))
    else if b0 = regCommandByte Config.cmdRreg (regOf b0) then
      match rest with
      | [] => .error .busTruncated
      | b1 :: rest' =>
        if b1.extractLsb' 4 4 ≠ 0 then .error .reservedCountBits else .ok (.rreg (regOf b0) (regOf b1), rest')
    else .error .unknownBusCommand

/-- The instruction at the head of the machine's input: a whole command word, or the bytes of exactly one bus command. -/
def decode : Command → Except DecodeError Instr
  | .host w => decodeHost w
  | .bus bytes =>
    match decodeBus bytes with
    | .ok (i, []) => .ok i
    | .ok (_, _ :: _) => .error .busTrailing
    | .error e => .error e

/-! ## The encoder -/

/-- The words of an instruction, from the tables of R102 and R120 to R122. -/
def encode : Instr → Command
  | .beginReset => .host (hostWord 0x01 0 0 0)
  | .beginWriteSettings timeout => .host (hostWord 0x02 0 0 timeout)
  | .readSettings updateLocal timeout => .host (hostWord 0x03 0 (updateLocalByte updateLocal) timeout)
  | .beginCapture timeout => .host (hostWord 0x04 0 0 timeout)
  | .continueCapture => .host (hostWord 0x05 0 0 0)
  | .endCapture => .host (hostWord 0x06 0 0 0)
  | .update => .host (hostWord 0x07 0 0 0)
  | .blockingInit timeout => .host (hostWord 0x08 0 0 timeout)
  | .rdreg sel => .host (hostWord 0x10 sel 0 0)
  | .wrreg sel val => .host (hostWord 0x11 sel val 0)
  | .rdchan idx => .host (hostWord 0x12 idx 0 0)
  | .wrchan idx val => .host (hostWord 0x13 idx val 0)
  | .rdres idx => .host (hostWord 0x14 idx 0 0)
  | .takeNewData => .host (hostWord 0x15 0 0 0)
  | .wreg r n values => .bus (regCommandByte Config.cmdWreg r :: countByte n :: values)
  | .rreg r n => .bus [regCommandByte Config.cmdRreg r, countByte n]
  | .sync => .bus [Config.cmdSync]
  | .wakeup => .bus [Config.cmdWakeup]
  | .rdata => .bus [Config.cmdRdata]

/-! ## The opcode table -/

/-- A host row of spec/opcode_table.json: a word belongs to it exactly when `w &&& mask = pattern` (R106). -/
structure HostRow where
  pattern : CommandWord
  mask    : CommandWord
  deriving DecidableEq, Repr

/-- The fourteen host rows of spec/opcode_table.json, in its order (R102). -/
def hostRows : List HostRow :=
  [ ⟨0x0100000000000000, 0xFFFFFFFFFFFFFFFF⟩, ⟨0x0200000000000000, 0xFFFFFFFF00000000⟩,
    ⟨0x0300000000000000, 0xFFFFFEFF00000000⟩, ⟨0x0400000000000000, 0xFFFFFFFF00000000⟩,
    ⟨0x0500000000000000, 0xFFFFFFFFFFFFFFFF⟩, ⟨0x0600000000000000, 0xFFFFFFFFFFFFFFFF⟩,
    ⟨0x0700000000000000, 0xFFFFFFFFFFFFFFFF⟩ ] ++
  [ ⟨0x0800000000000000, 0xFFFFFFFF00000000⟩, ⟨0x1000000000000000, 0xFF00FFFFFFFFFFFF⟩,
    ⟨0x1100000000000000, 0xFF0000FFFFFFFFFF⟩, ⟨0x1200000000000000, 0xFF00FFFFFFFFFFFF⟩,
    ⟨0x1300000000000000, 0xFF0000FFFFFFFFFF⟩, ⟨0x1400000000000000, 0xFF00FFFFFFFFFFFF⟩,
    ⟨0x1500000000000000, 0xFFFFFFFFFFFFFFFF⟩ ]

/-- A bus row of spec/opcode_table.json, read off the first byte of a command (R123): a command belongs to it exactly when that byte,
masked, is its pattern. -/
structure BusRow where
  pattern : Byte
  mask    : Byte
  deriving DecidableEq, Repr

/-- The five bus rows, in the table's order (R120 to R122). -/
def busRows : List BusRow := [⟨0x50, 0xF0⟩, ⟨0x10, 0xF0⟩, ⟨0xFC, 0xFF⟩, ⟨0x00, 0xFF⟩, ⟨0x01, 0xFF⟩]

/-! ## Table words -/

/-- The value bytes a table word leaves out, all zero: `n + 1` of them after a `WREG` header, none otherwise (log 12). -/
def missingValues (header : BitVec 16) : List Byte :=
  if header.extractLsb' 12 4 = 5 then List.replicate ((header.extractLsb' 0 4).toNat + 1) 0 else []

/-- A table word laid out as the hardware takes it. A 64-bit row is one command word. A 16-bit row is a bus command header whose
first byte is its bits 15 to 8, as spec/opcode_table.json numbers them. An 8-bit row is one byte (log 12). -/
def tableCommand (nbits w : Nat) : Command :=
  if nbits = 16 then
    let h := BitVec.ofNat 16 w
    .bus (h.extractLsb' 8 8 :: h.extractLsb' 0 8 :: missingValues h)
  else if nbits = 8 then .bus [BitVec.ofNat 8 w]
  else .host (BitVec.ofNat 64 w)

/-- The instruction this decoder reads from a row's bits. -/
def decodeTableWord (nbits w : Nat) : Option Instr :=
  if (nbits = 64 ∨ nbits = 16 ∨ nbits = 8) ∧ w < 2 ^ nbits then
    match decode (tableCommand nbits w) with
    | .ok i => some i
    | .error _ => none
  else none

end Sys2Proof
end

