-- ==== Sys2Proof/Machine/State.lean ====
section
/-! DEFINITION. The state of one instance (spec/10_state.md R51), its event trace (spec/20_memory.md R73), its ports, the draws
pending at its inputs, and the reasons a step can stop. State is plain data. -/

namespace Sys2Proof.Machine

/-- `STATE`, the lifecycle register (R32). Its 3-bit encoding is `Phase.code`. -/
inductive Phase where
  | uninitialized
  | resetting
  | writingSettings
  | idle
  | capturing
  | finishingCapture
  deriving DecidableEq, Repr, Inhabited

/-- The result codes (spec/30_encoding.md R112). Their numbers are `Code.toByte`. -/
inductive Code where
  | ok
  | outOfSyncSettings
  | notReadyToWriteSettings
  | notReadyToReadSettings
  | invalidResetMethod
  | timeoutWhileResetting
  | timeoutWhileWritingSettings
  | notReadyToBeginCapture
  | cannotEndWhenNotCapturing
  | writeSettingsRequiresIdle
  | readSettingsRequiresIdle
  | beginCaptureRequiresIdle
  deriving DecidableEq, Repr, Inhabited

/-- The output pins a `Pin(p) <- L` drives (R12, R73). -/
inductive Pin where
  | cs
  | rst
  | sclk
  deriving DecidableEq, Repr

/-- The settle delays by label (spec/70_reset_and_hazards.md R358). -/
inductive Delay where
  | t6
  | t10
  | t11Short
  | t11Long
  | t12
  | t13
  | t14
  | t15
  | resetPulse
  | preRelease
  deriving DecidableEq, Repr

/-- One event of the trace (R73). -/
inductive Event where
  /-- `OP(w)`: command word `w` accepted. -/
  | op (w : CommandWord)
  /-- `RET(c, d)`: result code `c`, data `d`. -/
  | ret (c : Code) (d : BitVec 32)
  /-- `ACQ`: scoped-transaction bracket opened. -/
  | acq
  /-- `REL`: scoped-transaction bracket closed. -/
  | rel
  /-- `BEGIN`: bus initialized. -/
  | busBegin
  /-- `END`: bus torn down. -/
  | busEnd
  /-- `PIN(p, L)`. -/
  | pin (p : Pin) (l : Level)
  /-- `TX(b)`: byte clocked out, byte in discarded. -/
  | tx (b : Byte)
  /-- `XFER(b, r)`: byte `b` clocked out, byte `r` clocked in. -/
  | xfer (b r : Byte)
  /-- `DELAY(T)`. -/
  | delay (d : Delay)
  /-- `DRDY(L)`: ready line sampled. -/
  | drdy (l : Level)
  /-- `NOW(t)`: clock read, in ms. -/
  | now (t : Nat)
  deriving DecidableEq, Repr

/-- `CFG`, the typed configuration (R35): the raw bits each field contributes to a device register. -/
structure Settings where
  order  : BitVec 1
  acal   : BitVec 1
  bufen  : BitVec 1
  clkout : BitVec 2
  sdcs   : BitVec 2
  pga    : BitVec 3
  drate  : BitVec 8
  deriving DecidableEq, Repr

/-- The environment at the block's inputs (R14): the draws already pending at each input, oldest first. When none is pending a draw
is a free value of Config at `count`. The model's own state, not the spec's (log 1 to 4). -/
structure Env where
  /-- The fairness assumption of R145: the clock grows without bound, so that every wait ends (log 4). -/
  fair  : Bool
  /-- How many draws have been taken. -/
  count : Nat
  /-- The last value `NowMs()` returned (R74). -/
  now   : Nat
  /-- Pending samples of the ready line. -/
  ready : List Level
  /-- Pending advances of the clock between one reading and the next, in ms. -/
  ticks : List Nat
  /-- Pending bytes on the serial data input. -/
  bytes : List Byte
  /-- Which input each next round of a wait samples. -/
  order : List Sample
  deriving DecidableEq, Repr

/-- The complete state of one instance (R51), its trace (R73), its two host ports (R320) and its environment. -/
structure State where
  /-- The construction constants, `N`, the pin assignments and the bus handle among them (R9). No step writes them. -/
  params   : Params
  /-- `STATE` (R32). -/
  phase    : Phase
  /-- `CFG` (R35). -/
  cfg      : Settings
  /-- `CHAN[0..N-1]` (R37). -/
  chan     : List Byte
  /-- `NEXT_MUX` (R38). -/
  nextMux  : BitVec 8
  /-- `CUR_MUX` (R39). -/
  curMux   : BitVec 8
  /-- `RESULT[0..N-1]` (R40). -/
  result   : List (BitVec 32)
  /-- `WR[0..N-1]` (R40). -/
  wr       : List Bool
  /-- `NEW_DATA` (R42). -/
  newData  : BitVec 8
  /-- `OOS` (R43). -/
  oos      : BitVec 1
  /-- `CS_LVL` (R48). -/
  csLvl    : Level
  /-- `SYNC_LVL` (R48). The block never drives it low (R326). -/
  syncLvl  : Level
  /-- `RST_LVL` (R48). -/
  rstLvl   : Level
  /-- `BUS_ON` (R48). -/
  busOn    : Bool
  /-- `BUS_HELD` (R48). -/
  busHeld  : Bool
  /-- The refused mark, which no later step clears (R118, R302). -/
  refused  : Bool
  /-- The fault mark of an unwritten read, which no later step clears (R274, R302). -/
  faulted  : Bool
  /-- The event trace, oldest first (R73). -/
  trace    : List Event
  /-- The words put out on the host result port, oldest first (R107, R320). -/
  results  : List ResultWord
  /-- What waits at the host command port, oldest first (R31, R100, R320). -/
  commands : List Command
  /-- The inputs' pending draws (R14). -/
  env      : Env
  deriving DecidableEq, Repr

/-- The reasons the machine stops with a fault. -/
inductive Fault where
  /-- Raised by `step` when the fault mark is set: an earlier `RDRES` read a slot never written (R274, 93 U1). Safe: the spec gives
  no value and no claim holds after the mark. -/
  | unwrittenResult
  /-- Raised by the operations that wait when the environment is not fair and let the wait run on: the wait does not end (R145,
  R355, 93 U15 "stuck"). Safe. -/
  | waitNeverEnds
  deriving DecidableEq, Repr

/-- The reasons the machine refuses to step. -/
inductive Refusal where
  /-- Raised by a dispatch arm of an instruction without a meaning. Safe. -/
  | notModelled (mnemonic : String)
  /-- Raised by `step` when the refused mark is set: the model takes no step after a refused word (R118, R146). Safe. -/
  | refusedMark
  /-- Raised by `step` on bus bytes that are none of the five bus commands (R123, R197; log 13). Safe. -/
  | busBytes
  deriving DecidableEq, Repr

/-- What a step answers. -/
abbrev Outcome := Host.Outcome State Fault Refusal

/-- The state right after construction (R51, R330) with the construction arguments `CFG_INIT`, `CHAN_INIT` and `OOS_INIT`. -/
def State.construct (params : Params) (cfgInit : Settings) (chanInit : List Byte) (oosInit : BitVec 1) : State where
  params   := params
  phase    := .uninitialized
  cfg      := cfgInit
  chan     := chanInit
  nextMux  := 0
  curMux   := Config.sentinel
  result   := List.replicate params.n.toNat 0
  wr       := List.replicate params.n.toNat false
  newData  := Config.sentinel
  oos      := oosInit
  csLvl    := .high
  syncLvl  := .high
  rstLvl   := .high
  busOn    := false
  busHeld  := false
  refused  := false
  faulted  := false
  trace    := []
  results  := []
  commands := []
  env      := ⟨true, 0, 0, [], [], [], []⟩

/-- The construction constants of the machine after reset: two channels and a reset pin (DESIGN CHOICE, log 5), the two open
parameters free (log 6), the pin assignments and the bus handle free (log 26). -/
def resetParams : Params := ⟨2, .controlPin, Config.waitCmp, Config.dontCare, Config.pins, Config.bus⟩

/-- The machine right after reset: construction (R330) with the arguments of log 5 (DESIGN CHOICE; those of program P1 in
spec/95_test_vectors.md). -/
def State.reset : State := State.construct resetParams ⟨0, 0, 0, 0, 0, 0, 0xF0⟩ [0, 0] 0

end Sys2Proof.Machine
end

