-- ==== Sys2Proof/Machine/Ops.lean ====
section
/-! DEFINITION. The named operations every meaning is built from: the bus, pin and input primitives (spec/00_scope.md R12, R13),
the tables, and the operation frame (spec/40_state_machine.md R146). The block takes no exception and returns from none (R300, R307):
an error is the code of the result word, so `State.reply` is the one place where an error leaves an operation. -/

namespace Sys2Proof.Machine

/-! ## The trace -/

/-- Append one event (R73). -/
def State.log (e : Event) (s : State) : State := { s with trace := s.trace ++ [e] }

/-! ## Bus and pin primitives (R12) -/

/-- `BusAcquire()`: opens the bracket and sets `BUS_HELD`. -/
def State.busAcquire (s : State) : State := { s.log .acq with busHeld := true }

/-- `BusRelease()`: closes the bracket. -/
def State.busRelease (s : State) : State := { s.log .rel with busHeld := false }

/-- `BusBegin()`: the bus is initialized. -/
def State.busBegin (s : State) : State := { s.log .busBegin with busOn := true }

/-- `BusEnd()`: the bus is torn down. -/
def State.busEnd (s : State) : State := { s.log .busEnd with busOn := false }

/-- `Pin(p) <- L`: drives an output and sets its level. The serial clock shares `RST_LVL` with the reset line (R48, R73; log 20). -/
def State.drivePin (p : Pin) (l : Level) (s : State) : State :=
  match p with
  | .cs => { s.log (.pin .cs l) with csLvl := l }
  | .rst => { s.log (.pin .rst l) with rstLvl := l }
  | .sclk => { s.log (.pin .sclk l) with rstLvl := l }

/-- `Send(b)`: one byte out. -/
def State.send (b : Byte) (s : State) : State := s.log (.tx b)

/-- Several bytes out, in order. -/
def State.sendAll : List Byte → State → State
  | [], s => s
  | b :: bs, s => (s.send b).sendAll bs

/-- `Delay(T)`: one event, no clock advanced (R345). -/
def State.delay (d : Delay) (s : State) : State := s.log (.delay d)

/-! ## Draws (R13, R14) -/

/-- The value the next draw of a stream gives: the oldest pending one, else the free value. -/
def drawn {α : Type} (pending : List α) (free : α) : α := pending.headD free

/-- `Drdy()`: samples the ready line (R13, R304). -/
def State.drdy (s : State) : Level × State :=
  let l := drawn s.env.ready (Config.freeReady s.env.count)
  (l, { s.log (.drdy l) with env := { s.env with ready := s.env.ready.tail, count := s.env.count + 1 } })

/-- `NowMs()`, not below `floor`: the clock reading is the larger of the last reading and `floor`, plus the next advance (R74). -/
def State.nowFrom (floor : Nat) (s : State) : Nat × State :=
  let t := max s.env.now floor + drawn s.env.ticks (Config.freeTick s.env.count)
  (t, { s.log (.now t) with env := { s.env with now := t, ticks := s.env.ticks.tail, count := s.env.count + 1 } })

/-- `NowMs()`: reads the clock (R13, R74). -/
def State.nowMs (s : State) : Nat × State := s.nowFrom 0

/-- `Xfer(b)`: one byte out, one byte in (R12). -/
def State.xfer (b : Byte) (s : State) : Byte × State :=
  let r := drawn s.env.bytes (Config.freeByte s.env.count)
  (r, { s.log (.xfer b r) with env := { s.env with bytes := s.env.bytes.tail, count := s.env.count + 1 } })

/-- `count` transfers of the don't-care byte, the bytes in arrival order (R191). -/
def State.xferMany : Nat → State → List Byte × State
  | 0, s => ([], s)
  | k + 1, s =>
    let (b, s1) := s.xfer s.params.dontCare
    let (bs, s2) := s1.xferMany k
    (b :: bs, s2)

/-- Which input a wait samples next. The choice is no event (R143; log 3). -/
def State.chooseSample (s : State) : Sample × State :=
  (drawn s.env.order (Config.freeSample s.env.count),
    { s with env := { s.env with order := s.env.order.tail, count := s.env.count + 1 } })

/-! ## The lifecycle register (R32, R33) -/

/-- `STATE <- p`. -/
def State.enter (p : Phase) (s : State) : State := { s with phase := p }

/-! ## Tables (R71, R72) -/

/-- `i < N`: `i` is a channel (R71). -/
def State.validIndex (s : State) (i : BitVec 8) : Bool := i < s.params.n

/-- `CHAN[i]`. Beyond the table it is a free value, which R44 rules out (log 17). -/
def State.chanAt (s : State) (i : BitVec 8) : Byte := s.chan.getD i.toNat (Config.outOfTable i.toNat)

/-- `CHAN[i] <- v`. The table's length never changes (R273). -/
def State.setChan (i : BitVec 8) (v : Byte) (s : State) : State := { s with chan := s.chan.set i.toNat v }

/-- `RESULT[i]`. -/
def State.resultAt (s : State) (i : BitVec 8) : BitVec 32 := s.result.getD i.toNat ((Config.outOfTable i.toNat).setWidth 32)

/-- `WR[i]`. -/
def State.writtenAt (s : State) (i : BitVec 8) : Bool := s.wr.getD i.toNat false

/-- The three tables have exactly `N` entries each (R9, R37, R40): the canonical form of the block's indexed storage. -/
def Memory.wf (s : State) : Bool :=
  s.chan.length == s.params.n.toNat && s.result.length == s.params.n.toNat && s.wr.length == s.params.n.toNat

/-! ## The operation frame (R146) -/

/-- What the body of an operation ends with. `byFairness` says that a wait in it ended only because the clock is assumed to grow
without bound (R145; log 4). -/
structure Reply where
  code       : Code
  data       : BitVec 32
  st         : State
  byFairness : Bool

/-- `return c` with data 0 (R15). -/
def replyCode (c : Code) (s : State) : Reply := ⟨c, 0, s, false⟩

/-- The numbers of the result codes (R112). -/
def codeByte : Code → BitVec 8
  | .ok => 0
  | .outOfSyncSettings => 1
  | .notReadyToWriteSettings => 2
  | .notReadyToReadSettings => 3
  | .invalidResetMethod => 4
  | .timeoutWhileResetting => 5
  | .timeoutWhileWritingSettings => 6
  | .notReadyToBeginCapture => 7
  | .cannotEndWhenNotCapturing => 8
  | .writeSettingsRequiresIdle => 9
  | .readSettingsRequiresIdle => 10
  | .beginCaptureRequiresIdle => 11

/-- The 40-bit result word `CODE ++ DATA` (R107). -/
def resultWord (c : Code) (d : BitVec 32) : ResultWord := codeByte c ++ d

/-- `append RET(c, d)` and `emit result word (c ++ d)` (R146). -/
def State.reply (c : Code) (d : BitVec 32) (s : State) : State :=
  { s.log (.ret c d) with results := s.results ++ [resultWord c d] }

/-- `Execute(w)` for an accepted word (R146): `OP(w)`, the body, `RET(c, d)` and the result word. A wait that ends only by fairness
leaves the machine stuck in an environment that is not fair (R145). -/
def hostOp (w : CommandWord) (body : State → Reply) (s : State) : Outcome :=
  let r := body (s.log (.op w))
  if s.env.fair || !r.byFairness then .next (r.st.reply r.code r.data) else .fault .waitNeverEnds

/-! ## Fetching -/

/-- Take the oldest command (R31): the command and the state without it. -/
def State.takeCommand (s : State) : Option (Command × State) :=
  match s.commands with
  | [] => none
  | c :: rest => some (c, { s with commands := rest })

end Sys2Proof.Machine
end

