-- ==== Sys2Proof/Machine/Flags.lean ====
section
/-! DEFINITION. The flag-like state (spec/10_state.md R46): the notification `NEW_DATA`, the written bits `WR`, and the refused and
fault marks of R302. The block has no condition codes. `OOS` is read and written through the selectors of Operands.lean only (R43). -/

namespace Sys2Proof.Machine

/-- `RESULT[i] <- v; WR[i] <- 1; NEW_DATA <- i` (R201): one store of a sample. -/
def State.storeSample (i : BitVec 8) (v : BitVec 32) (s : State) : State :=
  { s with result := s.result.set i.toNat v, wr := s.wr.set i.toNat true, newData := i }

/-- `NEW_DATA <- SENTINEL` (R275). -/
def State.clearNewData (s : State) : State := { s with newData := Config.sentinel }

/-- What a refused word does (R118): `OP(w)` and the refused mark, nothing else, and no result word (R107). -/
def State.refuse (w : CommandWord) (s : State) : State := { s.log (.op w) with refused := true }

/-- What the read of an unwritten slot does (R274): `OP(w)` (R146) and the fault mark, and no value. -/
def State.markFault (w : CommandWord) (s : State) : State := { s.log (.op w) with faulted := true }

end Sys2Proof.Machine
end

