-- ==== Sys2Proof/Machine/Operands.lean ====
section
/-! DEFINITION. The operands of the host accessors: the selector map of spec/30_encoding.md R116 with its widths (R117) and the
encoding of `STATE` (R113). -/

namespace Sys2Proof.Machine

/-- The 3-bit encoding of `STATE` (R113). -/
def phaseCode : Phase → BitVec 3
  | .uninitialized => 0
  | .resetting => 1
  | .writingSettings => 2
  | .idle => 3
  | .capturing => 4
  | .finishingCapture => 5

/-- `zext_32(element(sel))` (R116, R270), or nothing for a reserved selector (R118 (c)). -/
def State.element (s : State) (sel : BitVec 8) : Option (BitVec 32) :=
  match sel.toNat with
  | 0x00 => some ((phaseCode s.phase).setWidth 32)
  | 0x01 => some (s.cfg.order.setWidth 32)
  | 0x02 => some (s.cfg.acal.setWidth 32)
  | 0x03 => some (s.cfg.bufen.setWidth 32)
  | 0x04 => some (s.cfg.clkout.setWidth 32)
  | 0x05 => some (s.cfg.sdcs.setWidth 32)
  | 0x06 => some (s.cfg.pga.setWidth 32)
  | 0x07 => some (s.cfg.drate.setWidth 32)
  | 0x08 => some (s.oos.setWidth 32)
  | 0x09 => some (s.nextMux.setWidth 32)
  | 0x0A => some (s.curMux.setWidth 32)
  | 0x0B => some (s.newData.setWidth 32)
  | 0x0C => some (s.params.n.setWidth 32)
  | _ => none

/-- The width of a writable element (R116), or nothing for a reserved or read-only selector (R118 (c), (d)). -/
def writableWidth (sel : BitVec 8) : Option Nat :=
  match sel.toNat with
  | 0x01 => some 1
  | 0x02 => some 1
  | 0x03 => some 1
  | 0x04 => some 2
  | 0x05 => some 2
  | 0x06 => some 3
  | 0x07 => some 8
  | 0x08 => some 1
  | _ => none

/-- `sel` is writable and `val` fits its width (R117): a wider value is never truncated. -/
def writeLegal (sel val : BitVec 8) : Bool :=
  match writableWidth sel with
  | some width => val.toNat < 2 ^ width
  | none => false

/-- `element(sel) <- val` for a legal write (R271). -/
def State.setElement (sel val : BitVec 8) (s : State) : State :=
  match sel.toNat with
  | 0x01 => { s with cfg := { s.cfg with order := val.setWidth 1 } }
  | 0x02 => { s with cfg := { s.cfg with acal := val.setWidth 1 } }
  | 0x03 => { s with cfg := { s.cfg with bufen := val.setWidth 1 } }
  | 0x04 => { s with cfg := { s.cfg with clkout := val.setWidth 2 } }
  | 0x05 => { s with cfg := { s.cfg with sdcs := val.setWidth 2 } }
  | 0x06 => { s with cfg := { s.cfg with pga := val.setWidth 3 } }
  | 0x07 => { s with cfg := { s.cfg with drate := val } }
  | 0x08 => { s with oos := val.setWidth 1 }
  | _ => s

end Sys2Proof.Machine
end

