-- ==== Sys2Proof/Machine/Access.lean ====
section
/-! DEFINITION. The host accessors (spec/46_accessors.md R270 to R275). None touches the bus or samples a line; all are accepted
in every `STATE`. -/

namespace Sys2Proof.Machine

/-- `RDREG sel` (R270). -/
def execRdreg (sel : BitVec 8) (s : State) : Outcome :=
  match s.element sel with
  | some v => hostOp (hostWord 0x10 sel 0 0) (fun s1 => ⟨.ok, v, s1, false⟩) s
  | none => .next (s.refuse (hostWord 0x10 sel 0 0))

/-- `WRREG sel val` (R271). -/
def execWrreg (sel val : BitVec 8) (s : State) : Outcome :=
  if writeLegal sel val then
    hostOp (hostWord 0x11 sel val 0) (fun s1 => replyCode .ok (s1.setElement sel val)) s
  else .next (s.refuse (hostWord 0x11 sel val 0))

/-- `RDCHAN idx` (R272). -/
def execRdchan (idx : BitVec 8) (s : State) : Outcome :=
  if s.validIndex idx then
    hostOp (hostWord 0x12 idx 0 0) (fun s1 => ⟨.ok, (s1.chanAt idx).setWidth 32, s1, false⟩) s
  else .next (s.refuse (hostWord 0x12 idx 0 0))

/-- `WRCHAN idx val` (R273). -/
def execWrchan (idx val : BitVec 8) (s : State) : Outcome :=
  if s.validIndex idx then
    hostOp (hostWord 0x13 idx val 0) (fun s1 => replyCode .ok (s1.setChan idx val)) s
  else .next (s.refuse (hostWord 0x13 idx val 0))

/-- `RDRES idx` (R274): a slot never written gives the fault mark, never a value. -/
def execRdres (idx : BitVec 8) (s : State) : Outcome :=
  if s.validIndex idx then
    if s.writtenAt idx then hostOp (hostWord 0x14 idx 0 0) (fun s1 => ⟨.ok, s1.resultAt idx, s1, false⟩) s
    else .next (s.markFault (hostWord 0x14 idx 0 0))
  else .next (s.refuse (hostWord 0x14 idx 0 0))

/-- `TAKE_NEW_DATA` (R275): read and clear. -/
def execTakeNewData (s : State) : Outcome :=
  hostOp (hostWord 0x15 0 0 0) (fun s1 => ⟨.ok, s1.newData.setWidth 32, s1.clearNewData, false⟩) s

end Sys2Proof.Machine
end

