-- ==== Sys2Proof/Machine/Wait.lean ====
section
/-! DEFINITION. The bounded ready-wait (spec/40_state_machine.md R143 to R145) and the deadline test. -/

namespace Sys2Proof.Machine

/-- `Expired(e, timeout)` (R143). -/
def expired (cmp : WaitCmp) (elapsed timeout : Nat) : Bool :=
  match cmp with
  | .ge => decide (timeout ≤ elapsed)
  | .gt => decide (timeout < elapsed)

/-- The earliest clock reading at which a wait that began at `t0` has expired (R143, R145). -/
def deadline (cmp : WaitCmp) (t0 timeout : Nat) : Nat :=
  match cmp with
  | .ge => t0 + timeout
  | .gt => t0 + timeout + 1

/-- How a wait or polling loop ended. -/
structure WaitEnd where
  /-- `READY` (or `Idle` reached), not `TIMEOUT`. -/
  ready      : Bool
  st         : State
  byFairness : Bool

/-- The last reading of a wait or polling loop that took all its rounds: the clock has passed the deadline. It rests on the fairness
assumption only where the clock had not reached the deadline before (R145, 93 U15): from the deadline on every reading has expired. -/
def waitOut (t0 timeout : Nat) (s : State) : WaitEnd :=
  let d := deadline s.params.waitCmp t0 timeout
  ⟨false, (s.nowFrom d).2, decide (s.env.now < d)⟩

/-- The end of a wait that took all its rounds: `pending` clock samples, one for each advance still pending, the line left out (R143),
then the last reading. -/
def waitClock (t0 timeout : Nat) : Nat → State → WaitEnd
  | 0, s => waitOut t0 timeout s
  | pending + 1, s =>
    let (t, s1) := s.nowMs
    if expired s1.params.waitCmp (t - t0) timeout then ⟨false, s1, false⟩ else waitClock t0 timeout pending s1

/-- The loop of `ReadyWait` (R143), for at most `fuel` rounds of one sample each, any order, before the clock ends it (log 4). -/
def waitLoop (t0 timeout : Nat) : Nat → State → WaitEnd
  | 0, s => waitClock t0 timeout s.env.ticks.length s
  | fuel + 1, s =>
    let (which, s1) := s.chooseSample
    match which with
    | .readyLine =>
      let (l, s2) := s1.drdy
      match l with
      | .low => ⟨true, s2, false⟩
      | .high => waitLoop t0 timeout fuel s2
    | .clock =>
      let (t, s2) := s1.nowMs
      if expired s2.params.waitCmp (t - t0) timeout then ⟨false, s2, false⟩ else waitLoop t0 timeout fuel s2

/-- `ReadyWait(timeout)` (R143): any finite number of rounds (log 4). -/
def readyWait (timeout : Nat) (s : State) : WaitEnd :=
  let (t0, s1) := s.nowMs
  waitLoop t0 timeout (Config.freeLength s1.env.count + s1.env.order.length) s1

/-- An operation that waits before it acts (R142 to R144): the precondition, then the wait, then `act`. -/
def waitThen (timeout : Nat) (onTimeout : Code) (act : State → Reply) (s : State) : Reply :=
  let w := readyWait timeout s
  if w.ready then act w.st else ⟨onTimeout, 0, w.st, w.byFairness⟩

end Sys2Proof.Machine
end

