-- ==== Sys2Proof/Machine/Bus.lean ====
section
/-! DEFINITION. The bus commands `WREG`, `RREG`, `SYNC`, `WAKEUP`, `RDATA` (spec/42_bus_transactions.md R192 to R196), the two
transaction primitives built from them (R190, R191), and the sample decode (R200). -/

namespace Sys2Proof.Machine

/-! ## What sending each bus command does -/

/-- `WREG` (R192): command byte, count byte, value bytes in address order. -/
def State.wreg (r n : BitVec 4) (values : List Byte) (s : State) : State :=
  ((s.send (regCommandByte Config.cmdWreg r)).send (countByte n)).sendAll values

/-- `RREG` (R193): command byte, count byte, `Delay(T_6)`, then `n + 1` bytes clocked in. -/
def State.rreg (r n : BitVec 4) (s : State) : List Byte × State :=
  (((s.send (regCommandByte Config.cmdRreg r)).send (countByte n)).delay .t6).xferMany (n.toNat + 1)

/-- `SYNC` (R194), with the `Delay(T_11L)` that follows it. -/
def State.sync (s : State) : State := (s.send Config.cmdSync).delay .t11Long

/-- `WAKEUP` (R195). -/
def State.wakeup (s : State) : State := s.send Config.cmdWakeup

/-- `DecodeSample(b2, b1, b0)` (R200): 24-bit big-endian two's complement, sign-extended. -/
def decodeSample (b2 b1 b0 : Byte) : BitVec 32 := (b2 ++ b1 ++ b0).signExtend 32

/-- `RDATA` (R196): command byte, `Delay(T_6)`, three bytes clocked in, decoded. -/
def State.rdata (s : State) : BitVec 32 × State :=
  let (b2, s1) := ((s.send Config.cmdRdata).delay .t6).xfer s.params.dontCare
  let (b1, s2) := s1.xfer s.params.dontCare
  let (b0, s3) := s2.xfer s.params.dontCare
  (decodeSample b2 b1 b0, s3)

/-! ## Transactions (R190, R191) -/

/-- The opening of a transaction: bracket, then chip-select low. -/
def State.openFrame (s : State) : State := s.busAcquire.drivePin .cs .low

/-- The closing of a transaction: settle delay, chip-select high, `T_10`, bracket released. -/
def State.closeFrame (s : State) : State := (((s.delay .preRelease).drivePin .cs .high).delay .t10).busRelease

/-- `WriteRegs(r, count, v)` with `count = n + 1` values (R190). -/
def State.writeRegs (r n : BitVec 4) (values : List Byte) (s : State) : State :=
  (s.openFrame.wreg r n values).closeFrame

/-- `ReadRegs(r, count)` with `count = n + 1` (R191). -/
def State.readRegs (r n : BitVec 4) (s : State) : List Byte × State :=
  let (bs, s1) := s.openFrame.rreg r n
  (bs, s1.closeFrame)

/-! ## The bus commands as instructions (log 11)

Each appends its own events and consumes its own draws; it opens no frame (R192 to R196 give none) and returns no result word.
DESIGN CHOICE (log 11): a bare bus command runs in every `STATE`, `Resetting` included. The matrix of R141 lists host operations only,
and what R174 keeps off the bus in `Resetting` is the block's own traffic.
DESIGN CHOICE (log 25): R190 gives a register block the legal range `r + count <= 16` and no rule says what a `WREG` or `RREG` beyond it
does. It runs as every other: `r` and `n` go out as they are, and all `n + 1` bytes follow. -/

/-- `WREG r n values` (R192), in every `STATE` (log 11), also where `r + n + 1 > 16` (log 25). -/
def execWreg (r n : BitVec 4) (values : List Byte) (s : State) : Outcome := .next (s.wreg r n values)

/-- `RREG r n` (R193), in every `STATE` (log 11), also where `r + n + 1 > 16` (log 25). The bytes are in the trace; the block stores none of them (R50). -/
def execRreg (r n : BitVec 4) (s : State) : Outcome := .next (s.rreg r n).2

/-- `SYNC` (R194), in every `STATE` (log 11). -/
def execSync (s : State) : Outcome := .next s.sync

/-- `WAKEUP` (R195), in every `STATE` (log 11). -/
def execWakeup (s : State) : Outcome := .next s.wakeup

/-- `RDATA` (R196), in every `STATE` (log 11). The bytes are in the trace; only `ReadSample` stores a sample (R201). -/
def execRdata (s : State) : Outcome := .next s.rdata.2

end Sys2Proof.Machine
end

