-- ==== Sys2Proof/Machine/Capture.lean ====
section
/-! DEFINITION. The capture pipeline (spec/44_capture_pipeline.md R230 to R245): the pipelined step, `BEGIN_CAPTURE`, `UPDATE`,
`CONTINUE_CAPTURE`, `END_CAPTURE`. -/

namespace Sys2Proof.Machine

/-- The next cyclic index, `(k + 1) mod N` (R38, R233). -/
def State.nextIndex (s : State) (k : BitVec 8) : BitVec 8 := BitVec.ofNat 8 ((k.toNat + 1) % s.params.n.toNat)

/-- Part (2) of the step in `Capturing` (R233): retarget the multiplexer, `SYNC`, `WAKEUP`, advance the cursors. -/
def State.startNext (s : State) : State :=
  let k := s.nextMux
  let s1 := (((s.wreg Config.regMux 0 [s.chanAt k]).delay .t11Short).sync).wakeup
  { s1 with curMux := k, nextMux := s.nextIndex k }

/-- Part (2) of the step in `FinishingCapture` (R233): start nothing, clear the cursor, back to `Idle`. -/
def State.drain (s : State) : State := { s with curMux := Config.sentinel, phase := .idle }

/-- `ReadSample(this)` (R201). -/
def State.readSample (this : BitVec 8) (s : State) : State :=
  let (v, s1) := s.rdata
  s1.storeSample this v

/-- Part (3) of the step (R233): read the conversion that was in flight, if there was one. -/
def State.readInFlight (this : BitVec 8) (s : State) : State :=
  if this = Config.sentinel then s else s.readSample this

/-- `PipelinedStep()` (R233). -/
def State.pipelinedStep (s : State) : State :=
  let s1 := s.openFrame
  let s2 := if s.phase = .capturing then s1.startNext else s1.drain
  (s2.readInFlight s.curMux).closeFrame

/-- The body of `BEGIN_CAPTURE` (R230). -/
def beginCaptureBody (timeout : Nat) (s : State) : Reply :=
  if s.phase ≠ .idle then replyCode .beginCaptureRequiresIdle s
  else waitThen timeout .notReadyToBeginCapture
    (fun s1 => replyCode .ok (s1.enter .capturing).pipelinedStep) s

/-- The state the body of `UPDATE` leaves (R240). -/
def State.update (s : State) : State :=
  match s.phase with
  | .resetting | .writingSettings =>
    let (l, s1) := s.drdy
    match l with
    | .low => s1.enter .idle
    | .high => s1
  | .capturing | .finishingCapture =>
    let (l, s1) := s.drdy
    match l with
    | .low => s1.pipelinedStep
    | .high => s1
  | .uninitialized | .idle => s

/-- The body of `END_CAPTURE` (R245). -/
def endCaptureBody (s : State) : Reply :=
  if s.phase ≠ .capturing then replyCode .cannotEndWhenNotCapturing s
  else replyCode .ok (s.enter .finishingCapture)

/-- `BEGIN_CAPTURE` (R230). -/
def execBeginCapture (timeout : BitVec 32) (s : State) : Outcome :=
  hostOp (hostWord 0x04 0 0 timeout) (beginCaptureBody timeout.toNat) s

/-- `CONTINUE_CAPTURE` (R243): one pipelined step with no sample, refused outside the two capture states (R118 (f)). -/
def execContinueCapture (s : State) : Outcome :=
  if s.phase = .capturing ∨ s.phase = .finishingCapture then
    hostOp (hostWord 0x05 0 0 0) (fun s1 => replyCode .ok s1.pipelinedStep) s
  else .next (s.refuse (hostWord 0x05 0 0 0))

/-- `END_CAPTURE` (R245). -/
def execEndCapture (s : State) : Outcome := hostOp (hostWord 0x06 0 0 0) endCaptureBody s

/-- `UPDATE` (R240). -/
def execUpdate (s : State) : Outcome := hostOp (hostWord 0x07 0 0 0) (fun s1 => replyCode .ok s1.update) s

end Sys2Proof.Machine
end

