-- ==== Sys2Proof/Machine/Reset.lean ====
section
/-! DEFINITION. The reset sequencer (spec/41_reset.md R170 to R173): `BEGIN_RESET`. -/

namespace Sys2Proof.Machine

/-- `ControlPinReset()` (R171). -/
def State.controlPinReset (s : State) : State := ((s.drivePin .rst .low).delay .resetPulse).drivePin .rst .high

/-- One hold of the clock line (R172). -/
def State.hold (l : Level) (d : Delay) (s : State) : State := (s.drivePin .sclk l).delay d

/-- `ClockPinReset()` (R172): the bus torn down, chip-select idle, five holds. -/
def State.clockPinReset (s : State) : State :=
  (((((s.busEnd.drivePin .cs .high).hold .high .t12).hold .low .t13).hold .high .t14).hold .low .t13).hold .high .t15

/-- The part of `BEGIN_RESET` after its pulse (R170): `BusBegin()`, `CUR_MUX <- SENTINEL`, `STATE <- Resetting`. -/
def State.rearm (s : State) : State := { s.busBegin with curMux := Config.sentinel, phase := .resetting }

/-- The body of `BEGIN_RESET` (R170). -/
def beginResetBody (s : State) : Reply :=
  match s.params.resetStrategy with
  | .none => replyCode .invalidResetMethod s
  | .controlPin => replyCode .ok s.controlPinReset.rearm
  | .clockPin => replyCode .ok s.clockPinReset.rearm

/-- `BEGIN_RESET` (R170). -/
def execBeginReset (s : State) : Outcome := hostOp (hostWord 0x01 0 0 0) beginResetBody s

end Sys2Proof.Machine
end

