-- ==== Sys2Proof/Machine/Sync.lean ====
section
/-! DEFINITION. Configuration sync (spec/43_configuration_sync.md R210 to R217): `BEGIN_WRITE_SETTINGS`, `READ_SETTINGS`. -/

namespace Sys2Proof.Machine

/-- The four settings-register bytes in block order (R78). -/
structure Block where
  status : Byte
  mux    : Byte
  adcon  : Byte
  drate  : Byte
  deriving DecidableEq, Repr

/-- The block as the list of bytes a `WREG` sends (R190). -/
def Block.bytes (b : Block) : List Byte := [b.status, b.mux, b.adcon, b.drate]

/-- The block a read of four registers gave (R191). -/
def blockOf (bs : List Byte) : Block := ⟨bs.getD 0 0, bs.getD 1 0, bs.getD 2 0, bs.getD 3 0⟩

/-- The status byte `CFG.ORDER << 3 | CFG.ACAL << 2 | CFG.BUFEN << 1` (R124, R210). -/
def statusByte (c : Settings) : Byte := (0 : BitVec 4) ++ c.order ++ c.acal ++ c.bufen ++ (0 : BitVec 1)

/-- The control byte `CFG.CLKOUT << 5 | CFG.SDCS << 3 | CFG.PGA` (R126, R210). -/
def adconByte (c : Settings) : Byte := (0 : BitVec 1) ++ c.clkout ++ c.sdcs ++ c.pga

/-- `SettingsBytes()` (R210, R211). -/
def State.settingsBlock (s : State) : Block := ⟨statusByte s.cfg, s.chanAt s.nextMux, adconByte s.cfg, s.cfg.drate⟩

/-- A block with only the compared bits kept (R212). -/
def Block.masked (b : Block) : Block :=
  ⟨b.status &&& Config.maskStatus, b.mux &&& Config.maskMux, b.adcon &&& Config.maskAdcon, b.drate &&& Config.maskDrate⟩

/-- The configuration fields in a block read back (R217). -/
def Block.settings (b : Block) : Settings where
  order  := b.status.extractLsb' 3 1
  acal   := b.status.extractLsb' 2 1
  bufen  := b.status.extractLsb' 1 1
  clkout := b.adcon.extractLsb' 5 2
  sdcs   := b.adcon.extractLsb' 3 2
  pga    := b.adcon.extractLsb' 0 3
  drate  := b.drate

/-- `Adopt(r)` (R217): all seven fields and `CHAN[0]`. -/
def State.adopt (b : Block) (s : State) : State := { s.setChan 0 b.mux with cfg := b.settings }

/-- The body of `BEGIN_WRITE_SETTINGS` (R213). -/
def beginWriteSettingsBody (timeout : Nat) (s : State) : Reply :=
  if s.phase ≠ .idle then replyCode .writeSettingsRequiresIdle s
  else waitThen timeout .notReadyToWriteSettings
    (fun s1 => replyCode .ok ((s1.writeRegs Config.regStatus 3 s1.settingsBlock.bytes).enter .writingSettings)) s

/-- What `READ_SETTINGS` does once the line is ready (R215): read, then adopt or compare. -/
def readAndSettle (updateLocal : BitVec 1) (s : State) : Reply :=
  let (bs, s1) := s.readRegs Config.regStatus 3
  let r := blockOf bs
  if updateLocal = 1 then replyCode .ok (s1.adopt r)
  else if r.masked = s1.settingsBlock.masked then replyCode .ok s1
  else replyCode .outOfSyncSettings s1

/-- The body of `READ_SETTINGS` (R215). -/
def readSettingsBody (updateLocal : BitVec 1) (timeout : Nat) (s : State) : Reply :=
  if s.phase ≠ .idle then replyCode .readSettingsRequiresIdle s
  else waitThen timeout .notReadyToReadSettings (readAndSettle updateLocal) s

/-- `BEGIN_WRITE_SETTINGS` (R213). -/
def execBeginWriteSettings (timeout : BitVec 32) (s : State) : Outcome :=
  hostOp (hostWord 0x02 0 0 timeout) (beginWriteSettingsBody timeout.toNat) s

/-- `READ_SETTINGS` (R215). -/
def execReadSettings (updateLocal : BitVec 1) (timeout : BitVec 32) (s : State) : Outcome :=
  hostOp (hostWord 0x03 0 (updateLocalByte updateLocal) timeout) (readSettingsBody updateLocal timeout.toNat) s

end Sys2Proof.Machine
end

