-- ==== Sys2Proof/Machine/Init.lean ====
section
/-! DEFINITION. The blocking composite (spec/45_blocking_init.md R260 to R262): `BLOCKING_INIT`. -/

namespace Sys2Proof.Machine

/-- A polling loop of `BLOCKING_INIT` (R260): `UPDATE`, then the state test, then the clock test, for at most `fuel` clock tests
before the last one, which has expired (R145, R263; log 4). -/
def pollLoop (t0 timeout : Nat) : Nat → State → WaitEnd
  | 0, s =>
    let s1 := s.update
    if s1.phase = .idle then ⟨true, s1, false⟩ else waitOut t0 timeout s1
  | fuel + 1, s =>
    let s1 := s.update
    if s1.phase = .idle then ⟨true, s1, false⟩
    else
      let (t, s2) := s1.nowMs
      if expired s2.params.waitCmp (t - t0) timeout then ⟨false, s2, false⟩ else pollLoop t0 timeout fuel s2

/-- "busy-polls `update` until `Idle` or the deadline elapses" (R260), any finite number of rounds (log 4). -/
def pollUntilIdle (t0 timeout : Nat) (s : State) : WaitEnd :=
  pollLoop t0 timeout (Config.freeLength s.env.count + s.env.ready.length + s.env.ticks.length) s

/-- `Remaining(t0, timeout)` (R260), clamped at 0. -/
def State.remaining (t0 timeout : Nat) (s : State) : Nat × State :=
  let (t, s1) := s.nowMs
  (timeout - (t - t0), s1)

/-- The last part of `BLOCKING_INIT` (R260): the adopting read with the remaining budget. -/
def initRead (t0 timeout : Nat) (s : State) : Reply :=
  let (budget, s1) := s.remaining t0 timeout
  readSettingsBody 1 budget s1

/-- The second half of `BLOCKING_INIT` (R260), from the `Idle` that ends the reset: the settings write, the second polling loop,
the read. -/
def initWriteAndRead (t0 timeout : Nat) (s : State) : Reply :=
  let (budget, s1) := s.remaining t0 timeout
  let e := beginWriteSettingsBody budget s1
  if e.code ≠ .ok then e
  else
    let p := pollUntilIdle t0 timeout e.st
    if p.ready then initRead t0 timeout p.st else ⟨.timeoutWhileWritingSettings, 0, p.st, p.byFairness⟩

/-- The body of `BLOCKING_INIT` (R260). -/
def blockingInitBody (timeout : Nat) (s : State) : Reply :=
  let (t0, s1) := s.nowMs
  let e := beginResetBody s1
  if e.code ≠ .ok then e
  else
    let p := pollUntilIdle t0 timeout e.st
    if p.ready then initWriteAndRead t0 timeout p.st else ⟨.timeoutWhileResetting, 0, p.st, p.byFairness⟩

/-- `BLOCKING_INIT` (R260). -/
def execBlockingInit (timeout : BitVec 32) (s : State) : Outcome :=
  hostOp (hostWord 0x08 0 0 timeout) (blockingInitBody timeout.toNat) s

end Sys2Proof.Machine
end

