-- ==== Sys2Proof/Machine/Dispatch.lean ====
section
/-! DEFINITION. One arm per constructor of `Instr`. -/

namespace Sys2Proof.Machine

def exec (i : Instr) (s : State) : Host.Outcome State Fault Refusal :=
  match i with
  -- host operations (spec/30_encoding.md R105)
  | .beginReset => Sys2Proof.Machine.execBeginReset s
  | .beginWriteSettings timeout => Sys2Proof.Machine.execBeginWriteSettings timeout s
  | .readSettings updateLocal timeout => Sys2Proof.Machine.execReadSettings updateLocal timeout s
  | .beginCapture timeout => Sys2Proof.Machine.execBeginCapture timeout s
  | .continueCapture => Sys2Proof.Machine.execContinueCapture s
  | .endCapture => Sys2Proof.Machine.execEndCapture s
  | .update => Sys2Proof.Machine.execUpdate s
  | .blockingInit timeout => Sys2Proof.Machine.execBlockingInit timeout s
  | .rdreg sel => Sys2Proof.Machine.execRdreg sel s
  | .wrreg sel val => Sys2Proof.Machine.execWrreg sel val s
  | .rdchan idx => Sys2Proof.Machine.execRdchan idx s
  | .wrchan idx val => Sys2Proof.Machine.execWrchan idx val s
  | .rdres idx => Sys2Proof.Machine.execRdres idx s
  | .takeNewData => Sys2Proof.Machine.execTakeNewData s
  -- bus commands (spec/42_bus_transactions.md R192 to R196)
  | .wreg r n values => Sys2Proof.Machine.execWreg r n values s
  | .rreg r n => Sys2Proof.Machine.execRreg r n s
  | .sync => Sys2Proof.Machine.execSync s
  | .wakeup => Sys2Proof.Machine.execWakeup s
  | .rdata => Sys2Proof.Machine.execRdata s

end Sys2Proof.Machine
end

