-- ==== Sys2Proof/Machine/Fetch.lean ====
section
/-! DEFINITION. What `step` does around `exec`: the marks (spec/60_exceptions.md R302), an empty command port (R31), a command that
does not decode (R106, R118). -/

namespace Sys2Proof.Machine

/-- A command that is no instruction. A host word is refused: `OP(w)` and the refused mark (R118). Bus bytes have no `OP` event, so
the machine stops (log 13). -/
def refuseCommand (c : Command) (s : State) : Outcome :=
  match c with
  | .host w => .next (s.refuse w)
  | .bus _ => .refused .busBytes

/-- Run one command taken from the port (R106, R146). -/
def runCommand (c : Command) (s : State) : Outcome :=
  match decode c with
  | .ok i => exec i s
  | .error _ => refuseCommand c s

/-- One step. With a mark set the machine takes no step (R118, R302; log 9, 10). With nothing at the port, nothing advances (R31). -/
def stepOf (s : State) : Outcome :=
  if s.refused then .refused .refusedMark
  else if s.faulted then .fault .unwrittenResult
  else
    match s.takeCommand with
    | none => .next s
    | some (c, s1) => runCommand c s1

end Sys2Proof.Machine
end

