-- ==== Sys2Proof/Machine/Step.lean ====
section
/-! DEFINITION. One step of the machine, and the host pipeline's way of placing an instruction at the command port. -/

namespace Sys2Proof.Machine

/-- One step (spec/40_state_machine.md R146). -/
def step (s : State) : Host.Outcome State Fault Refusal := stepOf s

/-- `s` with the instruction of a table row placed first at the command port (log 14). -/
def State.withFetchWord (s : State) (nbits w : Nat) : State := { s with commands := tableCommand nbits w :: s.commands }

end Sys2Proof.Machine
end

