-- ==== Sys2Proof/Machine/Assembler.lean ====
section
/-! DEFINITION. The text of a host program (spec/30_encoding.md R131) and its pseudo-operation `POLL_IDLE` (R132), which the host
expands. No step of the machine reads text (log 22). -/

namespace Sys2Proof.Machine

/-- One line of a host program: an operation, or the pseudo-operation `POLL_IDLE limit=k` (R132). -/
inductive Line where
  | op (i : Instr)
  | pollIdle (limit : Nat)
  deriving DecidableEq, Repr

/-- The text before a comment. R131 makes a line `; text` a comment; that a comment may also end the line of an operation is the model's
(DESIGN CHOICE, log 22). -/
def withoutComment (line : List Char) : List Char := line.takeWhile (fun c => c != ';')

/-- The words of a text, `word` being the letters of an unfinished word, last first. -/
def wordsFrom (word : List Char) : List Char → List (List Char)
  | [] => if word.isEmpty then [] else [word.reverse]
  | c :: rest =>
    if c = ' ' then
      if word.isEmpty then wordsFrom [] rest else word.reverse :: wordsFrom [] rest
    else wordsFrom (c :: word) rest

/-- The value of a digit in a base up to 16. -/
def digitValue (c : Char) : Option Nat :=
  if '0' ≤ c ∧ c ≤ '9' then some (c.toNat - '0'.toNat)
  else if 'a' ≤ c ∧ c ≤ 'f' then some (c.toNat - 'a'.toNat + 10)
  else if 'A' ≤ c ∧ c ≤ 'F' then some (c.toNat - 'A'.toNat + 10)
  else none

/-- The number a list of digits writes, `acc` being the digits already read. -/
def digitsFrom (base acc : Nat) : List Char → Option Nat
  | [] => some acc
  | c :: rest =>
    match digitValue c with
    | some d => if d < base then digitsFrom base (acc * base + d) rest else none
    | none => none

/-- "Numbers are decimal or `0x` hexadecimal" (R131). -/
def numberOf : List Char → Option Nat
  | [] => none
  | '0' :: 'x' :: [] => none
  | '0' :: 'x' :: digits => digitsFrom 16 0 digits
  | digits => digitsFrom 10 0 digits

/-- The value of the operand `name=value` when `word` is one (R131). -/
def operandValue (name word : List Char) : Option Nat :=
  if word.take (name.length + 1) = name ++ ['='] then numberOf (word.drop (name.length + 1)) else none

/-- The values of the operands `names`, in their order. "An operand that is left out is 0" (R131). A word that is no operand in its
place makes the line no operation. -/
def operandValues : List (List Char) → List (List Char) → Option (List Nat)
  | [], [] => some []
  | [], _ :: _ => none
  | _ :: names, [] => (operandValues names []).map (0 :: ·)
  | name :: names, word :: words =>
    match operandValue name word with
    | some v => (operandValues names words).map (v :: ·)
    | none => (operandValues names (word :: words)).map (0 :: ·)

/-- A number as a field of `width` bits, when it fits (R101). -/
def fieldOf (width v : Nat) : Option (BitVec width) := if v < 2 ^ width then some (BitVec.ofNat width v) else none

/-- An operation without operands. -/
def bareLine (i : Instr) (words : List (List Char)) : Option Line :=
  (operandValues [] words).map (fun _ => .op i)

/-- An operation whose one operand is `name`, `width` bits wide. -/
def oneOperandLine (name : String) (width : Nat) (build : BitVec width → Instr) (words : List (List Char)) : Option Line :=
  match operandValues [name.toList] words with
  | some [v] => (fieldOf width v).map (fun x => .op (build x))
  | _ => none

/-- An operation whose two operands are `name1` and `name2`. -/
def twoOperandLine (name1 : String) (width1 : Nat) (name2 : String) (width2 : Nat)
    (build : BitVec width1 → BitVec width2 → Instr) (words : List (List Char)) : Option Line :=
  match operandValues [name1.toList, name2.toList] words with
  | some [v1, v2] =>
    match fieldOf width1 v1, fieldOf width2 v2 with
    | some x, some y => some (.op (build x y))
    | _, _ => none
  | _ => none

/-- A mnemonic of R105 or `POLL_IDLE`, with the words after it. -/
def lineOf (mnemonic : List Char) (words : List (List Char)) : Option Line :=
  if mnemonic = "BEGIN_RESET".toList then bareLine .beginReset words
  else if mnemonic = "BEGIN_WRITE_SETTINGS".toList then oneOperandLine "timeout" 32 .beginWriteSettings words
  else if mnemonic = "READ_SETTINGS".toList then twoOperandLine "update_local" 1 "timeout" 32 .readSettings words
  else if mnemonic = "BEGIN_CAPTURE".toList then oneOperandLine "timeout" 32 .beginCapture words
  else if mnemonic = "CONTINUE_CAPTURE".toList then bareLine .continueCapture words
  else if mnemonic = "END_CAPTURE".toList then bareLine .endCapture words
  else if mnemonic = "UPDATE".toList then bareLine .update words
  else if mnemonic = "BLOCKING_INIT".toList then oneOperandLine "timeout" 32 .blockingInit words
  else if mnemonic = "RDREG".toList then oneOperandLine "sel" 8 .rdreg words
  else if mnemonic = "WRREG".toList then twoOperandLine "sel" 8 "val" 8 .wrreg words
  else if mnemonic = "RDCHAN".toList then oneOperandLine "idx" 8 .rdchan words
  else if mnemonic = "WRCHAN".toList then twoOperandLine "idx" 8 "val" 8 .wrchan words
  else if mnemonic = "RDRES".toList then oneOperandLine "idx" 8 .rdres words
  else if mnemonic = "TAKE_NEW_DATA".toList then bareLine .takeNewData words
  else if mnemonic = "POLL_IDLE".toList then
    match operandValues ["limit".toList] words with
    | some [k] => some (.pollIdle k)
    | _ => none
  else none

/-- One line of a host program (R131): `some none` for a line with no operation, `none` for a line that is not in the syntax. A blank line
is one with no operation (DESIGN CHOICE, log 22). -/
def assembleLine (line : String) : Option (Option Line) :=
  match wordsFrom [] (withoutComment line.toList) with
  | [] => some none
  | mnemonic :: words => (lineOf mnemonic words).map some

/-- The host's expansion of `POLL_IDLE limit=k` (R132): at most `k` `UPDATE` words, each followed by the `RDREG sel=0x00` that tells
the host whether to stop. -/
def pollIdle : Nat → State → Outcome
  | 0, s => .next s
  | k + 1, s =>
    match exec .update s with
    | .next s1 =>
      match exec (.rdreg 0x00) s1 with
      | .next s2 => if s1.element 0x00 = some 3 then .next s2 else pollIdle k s2
      | stop => stop
    | stop => stop

end Sys2Proof.Machine
end

