-- ==== Sys2Proof/Machine/Codes.lean ====
section
/-! DEFINITION. What the raw codes of the configuration and of a channel entry mean in the ADS1256, as the spec tabulates it "from
general knowledge, not in source" (spec/10_state.md R35; spec/30_encoding.md R125, R128, R129, R130; spec/70_reset_and_hazards.md
R358). The block passes every code through and reads none of these tables, so no step of the machine uses them (log 21). -/

namespace Sys2Proof.Machine

/-- The amplification of a gain code (R129): 6 and 7 both give 64. -/
def gainFactor (pga : BitVec 3) : Nat := 2 ^ min pga.toNat 6

/-- The output clock divides the device clock by this, or is off (R35). -/
def clockOutDivisor (clkout : BitVec 2) : Option Nat :=
  match clkout.toNat with
  | 1 => some 1
  | 2 => some 2
  | 3 => some 4
  | _ => none

/-- The sensor-detect current in tenths of a microampere (R35). -/
def sensorDetectTenths (sdcs : BitVec 2) : Nat :=
  match sdcs.toNat with
  | 1 => 5
  | 2 => 20
  | 3 => 100
  | _ => 0

/-- Samples per ten seconds of a data-rate code, or nothing where the device's behaviour is unspecified (R128). -/
def samplesPerTenSeconds (drate : BitVec 8) : Option Nat :=
  match drate.toNat with
  | 0xF0 => some 300000
  | 0xE0 => some 150000
  | 0xD0 => some 75000
  | 0xC0 => some 37500
  | 0xB0 => some 20000
  | 0xA1 => some 10000
  | 0x92 => some 5000
  | 0x82 => some 1000
  | 0x72 => some 600
  | 0x63 => some 500
  | 0x53 => some 300
  | 0x43 => some 250
  | 0x33 => some 150
  | 0x23 => some 100
  | 0x13 => some 50
  | 0x03 => some 25
  | _ => none

/-- An analog input of the device (R125). -/
inductive AnalogInput where
  | ain (k : Fin 8)
  | aincom
  deriving DecidableEq, Repr

/-- The input a nibble of a multiplexer byte selects (R125): any value with bit 3 set is `AINCOM`. -/
def analogInput (nibble : BitVec 4) : AnalogInput :=
  if h : nibble.toNat < 8 then .ain ⟨nibble.toNat, h⟩ else .aincom

/-- The positive and negative inputs of a channel entry (R125). -/
def inputPair (entry : Byte) : AnalogInput × AnalogInput :=
  (analogInput (entry.extractLsb' 4 4), analogInput (entry.extractLsb' 0 4))

/-- The device's power-on settings bytes for a device ID (R130). -/
def powerOnBlock (deviceId : BitVec 4) : Block := ⟨deviceId ++ (1 : BitVec 4), 0x01, 0x20, 0xF0⟩

/-- The nominal minimum of a settle delay in microseconds (R358), or nothing where the spec gives no number. No rule depends on
these (R345; log 18). -/
def nominalMicroseconds : Delay → Option Nat
  | .t6 => some 7
  | .t10 => some 2
  | .t11Short => some 1
  | .t11Long => some 4
  | .t12 => some 52
  | .t13 => some 1
  | .t14 => some 85
  | .t15 => some 150
  | .resetPulse => none
  | .preRelease => some 1

end Sys2Proof.Machine
end

