-- ==== Sys2Proof/Safety.lean ====
section
/-! DEFINITION. What claims about the machine are stated in: the invariant of spec/10_state.md R44, R45 and R48, the marks of
spec/60_exceptions.md R302, the draws an operation is about to take, the events and bytes of a run, and the runs of a capture. -/

namespace Sys2Proof.Machine

/-! ## Marks and the invariant -/

/-- No mark is set. A run with a mark set satisfies no claim (R118, R302), and the machine takes no step in it. -/
def State.unmarked (s : State) : Prop := s.refused = false ∧ s.faulted = false

/-- The invariant of the machine between host operations. -/
structure State.Inv (s : State) : Prop where
  /-- `N >= 1` (R8). -/
  channels    : 1 ≤ s.params.n.toNat
  /-- The three tables have `N` entries (R9, R44 (3)). -/
  tables      : Memory.wf s = true
  /-- `NEXT_MUX < N` (R38, R44 (2)). -/
  nextValid   : s.nextMux < s.params.n
  /-- `CUR_MUX` is the sentinel or a channel (R39, R44 (1)). -/
  curValid    : s.curMux = Config.sentinel ∨ s.curMux < s.params.n
  /-- `NEW_DATA` is the sentinel or a channel (R42, R44). -/
  newValid    : s.newData = Config.sentinel ∨ s.newData < s.params.n
  /-- A channel is in flight exactly in the two capture states (R45). -/
  inFlight    : s.curMux ≠ Config.sentinel ↔ (s.phase = .capturing ∨ s.phase = .finishingCapture)
  /-- The interface levels between operations (R48, R331). -/
  levels      : s.csLvl = .high ∧ s.syncLvl = .high ∧ s.rstLvl = .high ∧ s.busHeld = false
  /-- The bus is initialized once a reset has run (R331). -/
  busReady    : s.phase ≠ .uninitialized → s.busOn = true
  /-- Every sample lies in `[-2^23, 2^23 - 1]` (R40). -/
  samples     : ∀ v ∈ s.result, -(2 ^ 23 : Int) ≤ v.toInt ∧ v.toInt < (2 ^ 23 : Int)
  /-- The slot `NEW_DATA` names has been written (R42, R201). -/
  newWritten  : s.newData ≠ Config.sentinel → s.writtenAt s.newData = true

end Sys2Proof.Machine

namespace Sys2Proof

/-! ## Refused operands -/

/-- `i` is refused in state `s` after it has decoded (R118 (c) to (f)). -/
def Instr.refusedIn (i : Instr) (s : Machine.State) : Prop :=
  match i with
  | .rdreg sel => 0x0D ≤ sel.toNat
  | .wrreg sel val =>
    sel.toNat = 0 ∨ 0x09 ≤ sel.toNat ∨ (sel.toNat ∈ [1, 2, 3, 8] ∧ 2 ≤ val.toNat) ∨ (sel.toNat ∈ [4, 5] ∧ 4 ≤ val.toNat)
      ∨ (sel.toNat = 6 ∧ 8 ≤ val.toNat)
  | .rdchan idx => s.params.n.toNat ≤ idx.toNat
  | .wrchan idx _ => s.params.n.toNat ≤ idx.toNat
  | .rdres idx => s.params.n.toNat ≤ idx.toNat
  | .continueCapture => s.phase ≠ .capturing ∧ s.phase ≠ .finishingCapture
  | .beginReset | .beginWriteSettings _ | .readSettings _ _ | .beginCapture _ | .endCapture | .update | .blockingInit _
  | .takeNewData | .wreg _ _ _ | .rreg _ _ | .sync | .wakeup | .rdata => False

/-- `i` reads a result slot that was never written (R274). -/
def Instr.readsUnwritten (i : Instr) (s : Machine.State) : Prop :=
  match i with
  | .rdres idx => idx.toNat < s.params.n.toNat ∧ s.writtenAt idx = false
  | .beginReset | .beginWriteSettings _ | .readSettings _ _ | .beginCapture _ | .continueCapture | .endCapture | .update
  | .blockingInit _ | .rdreg _ | .wrreg _ _ | .rdchan _ | .wrchan _ _ | .takeNewData | .wreg _ _ _ | .rreg _ _ | .sync
  | .wakeup | .rdata => False

/-- `i` is a host operation, not a bus command (R3). -/
def Instr.isHost : Instr → Bool
  | .wreg _ _ _ | .rreg _ _ | .sync | .wakeup | .rdata => false
  | .beginReset | .beginWriteSettings _ | .readSettings _ _ | .beginCapture _ | .continueCapture | .endCapture | .update
  | .blockingInit _ | .rdreg _ | .wrreg _ _ | .rdchan _ | .wrchan _ _ | .rdres _ | .takeNewData => true

/-- The host operations that may stand between the steps of a capture without taking a step or ending the capture. The laws of the capture
pipeline rule out `BEGIN_RESET` (and so `BLOCKING_INIT`), `WRCHAN` and `TAKE_NEW_DATA`. -/
def Instr.aside : Instr → Bool
  | .beginWriteSettings _ | .readSettings _ _ | .beginCapture _ | .rdreg _ | .wrreg _ _ | .rdchan _ | .rdres _ => true
  | .beginReset | .continueCapture | .endCapture | .update | .blockingInit _ | .wrchan _ _ | .takeNewData | .wreg _ _ _ | .rreg _ _
  | .sync | .wakeup | .rdata => false

end Sys2Proof

namespace Sys2Proof.Machine

/-! ## The draws an operation is about to take (R14) -/

/-- The level the next `Drdy()` returns. -/
def Env.nextReady (e : Env) : Level := e.ready.headD (Config.freeReady e.count)

/-- The environment after one `Drdy()`. -/
def Env.afterReady (e : Env) : Env := { e with ready := e.ready.tail, count := e.count + 1 }

/-- The byte the `k`-th next `Xfer` returns, when nothing else is drawn before it. -/
def Env.byteAt (e : Env) (k : Nat) : Byte := (e.bytes.drop k).headD (Config.freeByte (e.count + k))

/-- The environment after `k` calls of `Xfer`. -/
def Env.afterBytes (e : Env) (k : Nat) : Env := { e with bytes := e.bytes.drop k, count := e.count + k }

/-- The sample the next `RDATA` decodes to. -/
def Env.nextSample (e : Env) : BitVec 32 := decodeSample (e.byteAt 0) (e.byteAt 1) (e.byteAt 2)

/-- The settings block the next read of four registers returns. -/
def Env.nextBlock (e : Env) : Block := ⟨e.byteAt 0, e.byteAt 1, e.byteAt 2, e.byteAt 3⟩

/-- The seven configuration fields in the bytes of a settings read (R124, R126, R128, R217). -/
def Block.fields (r : Block) : Settings :=
  ⟨r.status.extractLsb' 3 1, r.status.extractLsb' 2 1, r.status.extractLsb' 1 1, r.adcon.extractLsb' 5 2, r.adcon.extractLsb' 3 2,
    r.adcon.extractLsb' 0 3, r.drate⟩

/-! ## Event sequences, named as in spec/95_test_vectors.md section 0 -/

/-- `OPEN`. -/
def openEvents : List Event := [.acq, .pin .cs .low]

/-- `CLOSE`. -/
def closeEvents : List Event := [.delay .preRelease, .pin .cs .high, .delay .t10, .rel]

/-- `START(e)`. -/
def startEvents (entry : Byte) : List Event :=
  [.tx 0x51, .tx 0x00, .tx entry, .delay .t11Short, .tx 0xFC, .delay .t11Long, .tx 0x00]

/-- `READ(a, b, c)`, the don't-care byte and the bytes read being those of the state. -/
def readEvents (dontCare : Byte) (e : Env) : List Event :=
  [.tx 0x01, .delay .t6, .xfer dontCare (e.byteAt 0), .xfer dontCare (e.byteAt 1), .xfer dontCare (e.byteAt 2)]

/-- `CPR`. -/
def controlPulseEvents : List Event := [.pin .rst .low, .delay .resetPulse, .pin .rst .high]

/-- `KPR`. -/
def clockPulseEvents : List Event :=
  [.busEnd, .pin .cs .high, .pin .sclk .high, .delay .t12, .pin .sclk .low, .delay .t13, .pin .sclk .high, .delay .t14,
    .pin .sclk .low, .delay .t13, .pin .sclk .high, .delay .t15]

/-- `WSET(s, m, a, d)`. -/
def writeBlockEvents (b : Block) : List Event :=
  openEvents ++ [.tx 0x50, .tx 0x03, .tx b.status, .tx b.mux, .tx b.adcon, .tx b.drate] ++ closeEvents

/-- `RSET(s, m, a, d)`. -/
def readBlockEvents (dontCare : Byte) (e : Env) : List Event :=
  openEvents ++ [.tx 0x10, .tx 0x03, .delay .t6, .xfer dontCare (e.byteAt 0), .xfer dontCare (e.byteAt 1),
    .xfer dontCare (e.byteAt 2), .xfer dontCare (e.byteAt 3)] ++ closeEvents

/-- `s` after it has returned `RET(c, d)`: the event and the result word, nothing else (R146). -/
def State.returned (c : Code) (d : BitVec 32) (s : State) : State :=
  { s with trace := s.trace ++ [.ret c d], results := s.results ++ [resultWord c d] }

/-- `s` after word `w` ran and did only `events` on the ports, returning `RET(c, d)` (R146). -/
def State.ran (w : CommandWord) (events : List Event) (c : Code) (d : BitVec 32) (s : State) : State :=
  { s with trace := s.trace ++ .op w :: (events ++ [.ret c d]), results := s.results ++ [resultWord c d] }

/-- The state after the wait with which the operation of word `w` begins, once its precondition holds (R143). -/
def waitOf (w : CommandWord) (timeout : BitVec 32) (s : State) : WaitEnd := readyWait timeout.toNat (s.log (.op w))

/-! ## Reading a trace -/

/-- The bytes a list of events clocks out as commands and values (`TX`). -/
def sentBytes : List Event → List Byte
  | [] => []
  | .tx b :: rest => b :: sentBytes rest
  | _ :: rest => sentBytes rest

/-- The bytes a list of events clocks in (`XFER`). -/
def readBytes : List Event → List Byte
  | [] => []
  | .xfer _ r :: rest => r :: readBytes rest
  | _ :: rest => readBytes rest

/-- The clock readings of a list of events. -/
def clockReadings : List Event → List Nat
  | [] => []
  | .now t :: rest => t :: clockReadings rest
  | _ :: rest => clockReadings rest

/-- The result words of the `RET` events of a list (R107, R146). -/
def returnedWords : List Event → List ResultWord
  | [] => []
  | .ret c d :: rest => resultWord c d :: returnedWords rest
  | _ :: rest => returnedWords rest

/-- One event of the bracket discipline (R88, R190, R343): whether the bracket is held and the chip-select level, before and after.
Bytes move only inside a bracket with chip-select low; inputs are sampled, the reset pins driven and operations begun and ended only
outside. -/
def frameStep (held : Bool) (cs : Level) : Event → Option (Bool × Level)
  | .acq => if held = false ∧ cs = .high then some (true, .high) else none
  | .rel => if held = true ∧ cs = .high then some (false, .high) else none
  | .pin .cs .low => if held = true ∧ cs = .high then some (true, .low) else none
  | .pin .cs .high => if held = true ∨ cs = .high then some (held, .high) else none
  | .tx _ | .xfer _ _ => if held = true ∧ cs = .low then some (true, .low) else none
  | .delay _ => some (held, cs)
  | .op _ | .ret _ _ | .busBegin | .busEnd | .pin .rst _ | .pin .sclk _ | .drdy _ | .now _ =>
    if held = false ∧ cs = .high then some (false, .high) else none

/-- The bracket discipline over a list of events: where it ends, or nothing where it is broken. -/
def frameScan : List Event → Bool → Level → Option (Bool × Level)
  | [], held, cs => some (held, cs)
  | e :: rest, held, cs =>
    match frameStep held cs e with
    | some (held', cs') => frameScan rest held' cs'
    | none => none

/-- The byte sequences a host operation sends as one group (R192 to R197): a settings write, a settings read header, the start of a
channel, a data read. -/
inductive SentGroup : List Byte → Prop
  | writeSettings (a b c d : Byte) : SentGroup [0x50, 0x03, a, b, c, d]
  | readSettings : SentGroup [0x10, 0x03]
  | start (entry : Byte) : SentGroup [0x51, 0x00, entry, 0xFC, 0x00]
  | readData : SentGroup [0x01]

/-! ## Runs of a capture (spec/44_capture_pipeline.md section 4) -/

/-- `CaptureRun s m t`: a `BEGIN_CAPTURE` that succeeded from `s`, then `UPDATE`, `CONTINUE_CAPTURE` and operations aside, have taken `m`
pipelined steps in `Capturing` and left `t`. -/
inductive CaptureRun : State → Nat → State → Prop
  | begun {s t : State} (timeout : BitVec 32) :
      s.phase = .idle → exec (.beginCapture timeout) s = .next t → t.phase = .capturing → CaptureRun s 1 t
  | stepped {s t u : State} {m : Nat} :
      CaptureRun s m t → t.env.nextReady = .low → exec .update t = .next u → CaptureRun s (m + 1) u
  | waited {s t u : State} {m : Nat} :
      CaptureRun s m t → t.env.nextReady = .high → exec .update t = .next u → CaptureRun s m u
  | continued {s t u : State} {m : Nat} :
      CaptureRun s m t → exec .continueCapture t = .next u → CaptureRun s (m + 1) u
  | passed {s t u : State} {m : Nat} (i : Instr) :
      CaptureRun s m t → i.aside = true → exec i t = .next u → CaptureRun s m u

/-- `UpdateRun s t`: zero or more `UPDATE` words lead from `s` to `t`. -/
inductive UpdateRun : State → State → Prop
  | refl (s : State) : UpdateRun s s
  | step {s t u : State} : exec .update s = .next t → UpdateRun t u → UpdateRun s u

end Sys2Proof.Machine
end

