-- ==== Sys2Proof/Certificates/Slice0/Obligations.lean ====
section
/-! DEFINITION. The statements for the provers. Each names the rule of spec/ it formalises, or the log entry it rests on. -/

open Sys2Proof Sys2Proof.Machine

/-! ## Encoding -/

/-- Decoding the encoding of a well-formed instruction gives it back, for all nineteen rows and every operand (R102, R120 to R122). -/
def Obligations.DecodeInvertsEncode : Prop :=
  ∀ i : Instr, i.wellFormed = true → decode (encode i) = .ok i

/-- Whatever decodes is the encoding of a well-formed instruction: no bit of a command is dropped or read loosely. -/
def Obligations.EncodeInvertsDecode : Prop :=
  ∀ (c : Command) (i : Instr), decode c = .ok i → i.wellFormed = true ∧ encode i = c

/-- R106: a host word is accepted exactly when it matches a row of the opcode table, then means the instruction whose word it is; else
it is refused as a reserved opcode or as a nonzero reserved field. -/
def Obligations.HostWordAcceptedExactlyByTableRow : Prop :=
  ∀ w : CommandWord,
    let known := (w.extractLsb' 56 8).toNat ∈ [1, 2, 3, 4, 5, 6, 7, 8, 16, 17, 18, 19, 20, 21]
    let matched := ∃ row ∈ hostRows, w &&& row.mask = row.pattern
    ((∃ i, decodeHost w = .ok i) ↔ matched) ∧
    (∀ i, decodeHost w = .ok i → encode i = .host w) ∧
    (decodeHost w = .error .reservedOpcode ↔ ¬ known) ∧
    (decodeHost w = .error .reservedField ↔ known ∧ ¬ matched)

/-- R123: the first byte tells the bus command and its length, so a command is read back from any bytes that follow it. -/
def Obligations.BusCommandReadBackBeforeAnyBytes : Prop :=
  ∀ (i : Instr) (bytes rest : List Byte),
    i.wellFormed = true → encode i = .bus bytes → decodeBus (bytes ++ rest) = .ok (i, rest)

/-- Words written out from the spec's tables decode to the instructions they stand for (R102, R120 to R122, R333; a sanity check). -/
def Obligations.WordsOfTheSpecDecode : Prop :=
  decodeHost 0x0100000000000000 = .ok .beginReset ∧
  decodeHost 0x02000000000001F4 = .ok (.beginWriteSettings 500) ∧
  decodeHost 0x0300010000000064 = .ok (.readSettings 1 100) ∧
  decodeHost 0x1107A10000000000 = .ok (.wrreg 0x07 0xA1) ∧
  decodeHost 0x1301180000000000 = .ok (.wrchan 1 0x18) ∧
  decode (.bus [0x51, 0x00, 0x18]) = .ok (.wreg 1 0 [0x18]) ∧
  decode (.bus [0x10, 0x03]) = .ok (.rreg 0 3) ∧
  decode (.bus [0xFC]) = .ok .sync

/-! ## The step -/

/-- A step of an unmarked machine takes the oldest command off the port and runs the instruction it decodes to (R31, R146). -/
def Obligations.StepRunsTheDecodedInstruction : Prop :=
  ∀ (s : State) (c : Command) (rest : List Command) (i : Instr),
    s.unmarked → s.commands = c :: rest → decode c = .ok i → step s = exec i { s with commands := rest }

/-- Nothing advances between operations (R31): with no command at the port a step changes nothing. -/
def Obligations.NothingAdvancesWithoutACommand : Prop :=
  ∀ s : State, s.unmarked → s.commands = [] → step s = .next s

/-- R118: a refused word, whether its bits are reserved or its operand is, appends `OP(w)`, sets the refused mark and changes nothing
else. It returns no result word (R107). -/
def Obligations.RefusedWordOnlySetsTheMark : Prop :=
  ∀ (s : State) (w : CommandWord) (rest : List Command),
    s.unmarked → s.commands = .host w :: rest →
    ((∃ e, decodeHost w = .error e) ∨ (∃ i, decodeHost w = .ok i ∧ i.refusedIn s)) →
    step s = .next { s with commands := rest, trace := s.trace ++ [.op w], refused := true }

/-- The marks of R302: no instruction clears one, and an instruction sets one exactly when its operand is refused or it reads a slot never
written. -/
def Obligations.MarksAreSetExactlyAndNeverCleared : Prop :=
  ∀ (i : Instr) (s t : State), exec i s = .next t →
    (t.refused = true ↔ s.refused = true ∨ i.refusedIn s) ∧ (t.faulted = true ↔ s.faulted = true ∨ i.readsUnwritten s)

/-- The model's rendering of "takes no step" and of `fault(UnwrittenResult)` (log 9, log 10; R118, R274): a marked machine answers a refusal
or a fault and no next state. -/
def Obligations.MarkedMachineTakesNoStep : Prop :=
  ∀ s : State,
    (s.refused = true → step s = .refused .refusedMark) ∧
    (s.refused = false → s.faulted = true → step s = .fault .unwrittenResult)

/-- Every instruction answers a next state, except that one of the four waiting operations is stuck in an environment that is not fair
(R145, R146): no instruction is refused outright, and none faults by itself. The stuck outcome is the model's rendering (log 4). -/
def Obligations.EveryInstructionAnswers : Prop :=
  ∀ (i : Instr) (s : State),
    (∃ t, exec i s = .next t) ∨
    (exec i s = .fault .waitNeverEnds ∧ s.env.fair = false ∧
      ∃ timeout, i = .beginWriteSettings timeout ∨ (∃ u, i = .readSettings u timeout) ∨ i = .beginCapture timeout ∨
        i = .blockingInit timeout)

/-- Every host operation that is neither refused nor an unwritten read opens with `OP(w)`, its own word, and closes with the one `RET`
whose result word it emits (R146). -/
def Obligations.OperationFrame : Prop :=
  ∀ (i : Instr) (s t : State) (w : CommandWord),
    encode i = .host w → ¬ i.refusedIn s → ¬ i.readsUnwritten s → exec i s = .next t →
    ∃ (body : List Event) (c : Code) (d : BitVec 32),
      t.trace = s.trace ++ .op w :: (body ++ [.ret c d]) ∧
      (∀ e ∈ body, ∀ (w' : CommandWord) (c' : Code) (d' : BitVec 32), e ≠ .op w' ∧ e ≠ .ret c' d') ∧
      t.results = s.results ++ [resultWord c d]

/-- The result word is `CODE ++ DATA`, and the codes are numbered 0 to 11 in the order of R112 (R107). -/
def Obligations.ResultWordLayout : Prop :=
  (∀ (c : Code) (d : BitVec 32),
    (resultWord c d).extractLsb' 32 8 = codeByte c ∧ (resultWord c d).extractLsb' 0 32 = d) ∧
  [Code.ok, .outOfSyncSettings, .notReadyToWriteSettings, .notReadyToReadSettings, .invalidResetMethod, .timeoutWhileResetting,
    .timeoutWhileWritingSettings, .notReadyToBeginCapture, .cannotEndWhenNotCapturing, .writeSettingsRequiresIdle,
    .readSettingsRequiresIdle, .beginCaptureRequiresIdle].map (fun c => (codeByte c).toNat) = [0, 1, 2, 3, 4, 5, 6, 7, 8, 9, 10, 11]

/-! ## Construction and invariants -/

/-- R331: what each element holds after construction, whatever its arguments, and after a successful `BEGIN_RESET` from a state whose
interface levels are at rest. -/
def Obligations.ElementsAfterConstructionAndReset : Prop :=
  (∀ (p : Params) (cfg : Settings) (chan : List Byte) (oos : BitVec 1),
    let s := State.construct p cfg chan oos
    s.phase = .uninitialized ∧ s.params = p ∧ s.cfg = cfg ∧ s.chan = chan ∧ s.oos = oos ∧ s.nextMux = 0 ∧ s.curMux = 0xFF ∧
    s.newData = 0xFF ∧ s.result.length = p.n.toNat ∧ s.wr.length = p.n.toNat ∧ (∀ i, s.writtenAt i = false) ∧
    s.csLvl = .high ∧ s.syncLvl = .high ∧ s.rstLvl = .high ∧ s.busOn = false ∧ s.busHeld = false ∧
    s.refused = false ∧ s.faulted = false ∧ s.trace = []) ∧
  (∀ s : State, s.params.resetStrategy ≠ .none → s.csLvl = .high → s.syncLvl = .high → s.busHeld = false →
    ∃ t, exec .beginReset s = .next t ∧
      t.phase = .resetting ∧ t.curMux = 0xFF ∧ t.nextMux = s.nextMux ∧ t.newData = s.newData ∧ t.result = s.result ∧ t.wr = s.wr ∧
      t.cfg = s.cfg ∧ t.chan = s.chan ∧ t.oos = s.oos ∧ t.csLvl = .high ∧ t.syncLvl = .high ∧ t.rstLvl = .high ∧
      t.busOn = true ∧ t.busHeld = false)

/-- A legal construction meets the invariant (R44, R45, R48), and so does the reset state, whose construction arguments are the model's
choice (log 5). -/
def Obligations.ConstructionMeetsTheInvariant : Prop :=
  (∀ (p : Params) (cfg : Settings) (chan : List Byte) (oos : BitVec 1),
    1 ≤ p.n.toNat → chan.length = p.n.toNat → (State.construct p cfg chan oos).Inv) ∧
  State.reset.Inv

/-- Every step keeps the invariant (R44, R45, R48) and the channel table's length: table lengths, cursors and marker in range, a channel in
flight exactly in the capture states, the interface levels at rest, the bus initialized after a reset, samples in range. -/
def Obligations.EveryStepKeepsTheInvariant : Prop :=
  ∀ s t : State, s.Inv → step s = .next t → t.Inv ∧ t.chan.length = s.chan.length

/-- The construction constants (`N`, the reset strategy, the pin assignments, the bus handle), the channel table's length, the synchronize
line and the fairness of the environment never change, the trace is append-only and one result word is emitted for each `RET` (R9, R73,
R146, R326). The two ports as lists, the fairness flag and the numbers that name pins and bus are the model's (log 4, 14, 16, 26). -/
def Obligations.ConstantsStandAndTheTraceGrows : Prop :=
  ∀ s t : State, step s = .next t →
    t.params = s.params ∧ t.chan.length = s.chan.length ∧ t.syncLvl = s.syncLvl ∧ t.env.fair = s.env.fair ∧
    (∃ events, t.trace = s.trace ++ events ∧ t.results = s.results ++ returnedWords events) ∧
    (∃ taken, s.commands = taken ++ t.commands ∧ taken.length ≤ 1)

/-- The clock readings of successive steps never decrease (R74). -/
def Obligations.ClockReadingsNeverDecrease : Prop :=
  ∀ s t : State, step s = .next t →
    ∃ events, t.trace = s.trace ++ events ∧
      List.IsChain (· ≤ ·) (s.env.now :: clockReadings events) ∧
      t.env.now = (clockReadings events).getLastD s.env.now

/-! ## Whole-machine rules -/

/-- R140: outside `BLOCKING_INIT`, `STATE` changes only as the transition table says. -/
def Obligations.StateChangesOnlyByTheTable : Prop :=
  ∀ (i : Instr) (s t : State), (∀ timeout, i ≠ .blockingInit timeout) → exec i s = .next t → t.phase ≠ s.phase →
    (i = .beginReset ∧ s.params.resetStrategy ≠ .none ∧ t.phase = .resetting) ∨
    (i = .update ∧ s.env.nextReady = .low ∧ (s.phase = .resetting ∨ s.phase = .writingSettings) ∧ t.phase = .idle) ∨
    (∃ timeout, i = .beginWriteSettings timeout ∧ s.phase = .idle ∧
      (waitOf (hostWord 0x02 0 0 timeout) timeout s).ready = true ∧ t.phase = .writingSettings) ∨
    (∃ timeout, i = .beginCapture timeout ∧ s.phase = .idle ∧
      (waitOf (hostWord 0x04 0 0 timeout) timeout s).ready = true ∧ t.phase = .capturing) ∨
    (i = .endCapture ∧ s.phase = .capturing ∧ t.phase = .finishingCapture) ∨
    (((i = .update ∧ s.env.nextReady = .low) ∨ i = .continueCapture) ∧ s.phase = .finishingCapture ∧ t.phase = .idle)

/-- `Uninitialized` is never re-entered, and only `BEGIN_RESET` and `BLOCKING_INIT` leave it (R34, R334). -/
def Obligations.UninitializedIsNeverReentered : Prop :=
  ∀ (i : Instr) (s t : State), exec i s = .next t →
    (s.phase ≠ .uninitialized → t.phase ≠ .uninitialized) ∧
    (s.phase = .uninitialized → t.phase ≠ .uninitialized → i = .beginReset ∨ ∃ timeout, i = .blockingInit timeout)

/-- Who writes what (R33, R36 to R40, R42, R43): each host-visible element changes only by the operations its rule lists, and `N` never
does. The first step of a capture reads no sample (R230, R45). -/
def Obligations.OnlyTheListedOperationsWrite : Prop :=
  ∀ (i : Instr) (s t : State), exec i s = .next t →
    (t.phase ≠ s.phase →
      i = .beginReset ∨ i = .update ∨ i = .continueCapture ∨ i = .endCapture ∨
      ∃ timeout, i = .beginWriteSettings timeout ∨ i = .beginCapture timeout ∨ i = .blockingInit timeout) ∧
    (t.cfg ≠ s.cfg → (∃ sel val, i = .wrreg sel val) ∨ (∃ timeout, i = .readSettings 1 timeout) ∨ ∃ timeout, i = .blockingInit timeout) ∧
    (t.chan ≠ s.chan → (∃ idx val, i = .wrchan idx val) ∨ (∃ timeout, i = .readSettings 1 timeout) ∨ ∃ timeout, i = .blockingInit timeout) ∧
    (t.oos ≠ s.oos → ∃ val, i = .wrreg 0x08 val) ∧
    (t.nextMux ≠ s.nextMux → (∃ timeout, i = .beginCapture timeout) ∨ (s.phase = .capturing ∧ (i = .update ∨ i = .continueCapture))) ∧
    (t.curMux ≠ s.curMux →
      i = .beginReset ∨ i = .update ∨ i = .continueCapture ∨ ∃ timeout, i = .blockingInit timeout ∨ i = .beginCapture timeout) ∧
    (t.result ≠ s.result ∨ t.wr ≠ s.wr → i = .update ∨ i = .continueCapture ∨ ∃ timeout, i = .beginCapture timeout) ∧
    (t.newData ≠ s.newData → i = .update ∨ i = .continueCapture ∨ i = .takeNewData ∨ ∃ timeout, i = .beginCapture timeout) ∧
    (s.Inv → (∃ timeout, i = .beginCapture timeout) → t.result = s.result ∧ t.wr = s.wr ∧ t.newData = s.newData) ∧
    t.params = s.params

/-- The bracket discipline (R88, R190, R191, R343): every host operation opens and closes its own brackets, moves bytes only with the
bracket held and chip-select low, and waits and polls only outside. -/
def Obligations.EveryOperationKeepsTheBracketDiscipline : Prop :=
  ∀ (i : Instr) (s t : State), i.isHost = true → exec i s = .next t →
    ∃ events, t.trace = s.trace ++ events ∧ frameScan events false .high = some (false, .high)

/-- R197: whatever a host operation sends is made of settings writes to `REG_STATUS` with four registers, settings read headers, starts
of a channel (`WREG` of `REG_MUX` alone, `SYNC`, `WAKEUP`) and data reads, and every other byte it clocks out is the don't-care byte. -/
def Obligations.OnlyTheFiveCommandsAreSent : Prop :=
  ∀ (i : Instr) (s t : State), i.isHost = true → exec i s = .next t →
    ∃ (events : List Event) (groups : List (List Byte)),
      t.trace = s.trace ++ events ∧ sentBytes events = groups.flatten ∧ (∀ g ∈ groups, SentGroup g) ∧
      ∀ b r, .xfer b r ∈ events → b = s.params.dontCare

/-- R174: in `Resetting` nothing but `BEGIN_RESET` and `BLOCKING_INIT` puts an event on the bus; the other operations sample the ready
line at most. -/
def Obligations.NoBusTrafficWhileResetting : Prop :=
  ∀ (i : Instr) (s t : State), i.isHost = true → s.phase = .resetting → i ≠ .beginReset → (∀ timeout, i ≠ .blockingInit timeout) →
    exec i s = .next t →
    ∃ events, t.trace = s.trace ++ events ∧
      ∀ e ∈ events, (∃ w, e = .op w) ∨ (∃ c d, e = .ret c d) ∨ (i = .update ∧ ∃ l, e = .drdy l)

/-! ## Reset -/

/-- `BEGIN_RESET` (R170, R171, R172) from every state, by reset strategy: the pulse, `BEGIN`, `CUR_MUX`, `STATE`, and nothing else; with
no valid method, code 4 and nothing else. -/
def Obligations.BeginResetByStrategy : Prop :=
  ∀ s : State,
    (s.params.resetStrategy = .none →
      exec .beginReset s = .next (s.ran 0x0100000000000000 [] .invalidResetMethod 0)) ∧
    (s.params.resetStrategy = .controlPin →
      exec .beginReset s = .next (({ s with phase := .resetting, curMux := 0xFF, rstLvl := .high, busOn := true } : State).ran
        0x0100000000000000 (controlPulseEvents ++ [.busBegin]) .ok 0)) ∧
    (s.params.resetStrategy = .clockPin →
      exec .beginReset s =
        .next (({ s with phase := .resetting, curMux := 0xFF, rstLvl := .high, csLvl := .high, busOn := true } : State).ran
          0x0100000000000000 (clockPulseEvents ++ [.busBegin]) .ok 0))

/-! ## Waits -/

/-- R142: a failed precondition appends only `OP(w)` and `RET(code, 0)`, returns its code and changes no state. -/
def Obligations.PreconditionFailureIsANoOp : Prop :=
  ∀ (s : State) (timeout : BitVec 32) (u : BitVec 1),
    (s.params.resetStrategy = .none →
      exec .beginReset s = .next (s.ran (hostWord 0x01 0 0 0) [] .invalidResetMethod 0)) ∧
    (s.phase ≠ .idle →
      exec (.beginWriteSettings timeout) s = .next (s.ran (hostWord 0x02 0 0 timeout) [] .writeSettingsRequiresIdle 0) ∧
      exec (.readSettings u timeout) s =
        .next (s.ran (hostWord 0x03 0 (updateLocalByte u) timeout) [] .readSettingsRequiresIdle 0) ∧
      exec (.beginCapture timeout) s = .next (s.ran (hostWord 0x04 0 0 timeout) [] .beginCaptureRequiresIdle 0)) ∧
    (s.phase ≠ .capturing →
      exec .endCapture s = .next (s.ran (hostWord 0x06 0 0 0) [] .cannotEndWhenNotCapturing 0))

/-- What a wait does (R143): it reads the clock once, then takes samples none of which qualifies, then one that does: a `LOW` sample for
`READY`, an expired reading for `TIMEOUT`. It changes the trace and the inputs only, and sends nothing. R145 gives a wait that no pending
sample ends its end only under the fairness assumption; that the model ends such a wait with an expired reading, and marks it
`byFairness`, is its own rendering (log 4), so this clause rests on no rule there. The operations go on from such an end only where
`env.fair` holds (`UnfairWaitIsStuck`). -/
def Obligations.WaitEndsAtTheFirstQualifyingSample : Prop :=
  ∀ (timeout : Nat) (s : State),
    let w := readyWait timeout s
    let cmp := s.params.waitCmp
    w.st = { s with trace := w.st.trace, env := w.st.env } ∧ w.st.env.fair = s.env.fair ∧
    ∃ (t0 : Nat) (before : List Event) (last : Event),
      w.st.trace = s.trace ++ .now t0 :: (before ++ [last]) ∧
      (∀ e ∈ before, e = .drdy .high ∨ ∃ t, e = .now t ∧ expired cmp (t - t0) timeout = false) ∧
      (w.ready = true → last = .drdy .low) ∧
      (w.ready = false → ∃ t, last = .now t ∧ expired cmp (t - t0) timeout = true)

/-- A wait admits every sample order and every finite number of samples (R143 "A model admits every such sequence"): whatever legal
sequence of samples is given, some pending draws make the wait take exactly it. The pending draws, the drawn order and the rounds a wait
may take are the model's (log 1 to 4). -/
def Obligations.WaitAdmitsEverySampleOrder : Prop :=
  ∀ (timeout : Nat) (s : State) (t0 : Nat) (before : List Event) (last : Event),
    let cmp := s.params.waitCmp
    (∀ e ∈ before, e = .drdy .high ∨ ∃ t, e = .now t ∧ expired cmp (t - t0) timeout = false) →
    (last = .drdy .low ∨ ∃ t, last = .now t ∧ expired cmp (t - t0) timeout = true) →
    List.IsChain (· ≤ ·) (s.env.now :: t0 :: clockReadings (before ++ [last])) →
    ∃ e : Env, e.now = s.env.now ∧
      (readyWait timeout { s with env := e }).st.trace = s.trace ++ .now t0 :: (before ++ [last]) ∧
      (readyWait timeout { s with env := e }).byFairness = false

/-- R144: a wait that times out makes its operation return code 2, 3 or 7 with no state change and no bus traffic: only samples of the
line and the clock lie between `OP` and `RET`. -/
def Obligations.TimedOutWaitLeavesTheStateUnchanged : Prop :=
  ∀ (i : Instr) (w : CommandWord) (timeout : BitVec 32) (c : Code) (s : State),
    ((i = .beginWriteSettings timeout ∧ c = .notReadyToWriteSettings) ∨
      ((i = .readSettings 0 timeout ∨ i = .readSettings 1 timeout) ∧ c = .notReadyToReadSettings) ∨
      (i = .beginCapture timeout ∧ c = .notReadyToBeginCapture)) →
    encode i = .host w → s.phase = .idle → (waitOf w timeout s).ready = false →
    (s.env.fair = true ∨ (waitOf w timeout s).byFairness = false) →
    ∃ (t : State) (samples : List Event),
      exec i s = .next t ∧
      t = { s with trace := t.trace, results := s.results ++ [resultWord c 0], env := t.env } ∧
      t.trace = s.trace ++ .op w :: (samples ++ [.ret c 0]) ∧
      ∀ e ∈ samples, e = .drdy .high ∨ ∃ n, e = .now n

/-- A wait that ends by nothing but the fairness assumption (R145) is stuck in an environment that is not fair. The flag and the fault that
stands for "stuck" are the model's (log 4). -/
def Obligations.UnfairWaitIsStuck : Prop :=
  ∀ (i : Instr) (w : CommandWord) (timeout : BitVec 32) (s : State),
    (i = .beginWriteSettings timeout ∨ i = .readSettings 0 timeout ∨ i = .readSettings 1 timeout ∨ i = .beginCapture timeout) →
    encode i = .host w → s.phase = .idle → (waitOf w timeout s).ready = false → s.env.fair = false →
    (waitOf w timeout s).byFairness = true →
    exec i s = .fault .waitNeverEnds

/-! ## Configuration sync -/

/-- The settings bytes (R210, R211): status `ORDER << 3 | ACAL << 2 | BUFEN << 1`, the entry `CHAN[NEXT_MUX]`, control
`CLKOUT << 5 | SDCS << 3 | PGA`, the data rate; the unused bits are 0 and the masks drop nothing of them (R212). -/
def Obligations.SettingsBytesFromConfiguration : Prop :=
  ∀ s : State,
    let b := s.settingsBlock
    b.status.toNat = s.cfg.order.toNat * 8 + s.cfg.acal.toNat * 4 + s.cfg.bufen.toNat * 2 ∧
    b.mux = s.chanAt s.nextMux ∧
    b.adcon.toNat = s.cfg.clkout.toNat * 32 + s.cfg.sdcs.toNat * 8 + s.cfg.pga.toNat ∧
    b.drate = s.cfg.drate ∧
    b.masked = b

/-- `BEGIN_WRITE_SETTINGS` (R213): the precondition code, the settings write and `WritingSettings`, or the timeout code. -/
def Obligations.BeginWriteSettingsResult : Prop :=
  ∀ (timeout : BitVec 32) (s : State),
    let word := hostWord 0x02 0 0 timeout
    let w := waitOf word timeout s
    (s.phase ≠ .idle → exec (.beginWriteSettings timeout) s = .next (s.ran word [] .writeSettingsRequiresIdle 0)) ∧
    (s.phase = .idle → w.ready = true →
      exec (.beginWriteSettings timeout) s = .next (({ w.st with
        trace := w.st.trace ++ writeBlockEvents s.settingsBlock
        phase := .writingSettings
        csLvl := .high
        busHeld := false } : State).returned .ok 0)) ∧
    (s.phase = .idle → w.ready = false → (s.env.fair = true ∨ w.byFairness = false) →
      exec (.beginWriteSettings timeout) s = .next (w.st.returned .notReadyToWriteSettings 0))

/-- `READ_SETTINGS` (R215, R217): the precondition code; the read, then adoption of all seven fields and `CHAN[0]`, or the masked
comparison with code 0 or 1; or the timeout code. -/
def Obligations.ReadSettingsResult : Prop :=
  ∀ (u : BitVec 1) (timeout : BitVec 32) (s : State),
    let word := hostWord 0x03 0 (updateLocalByte u) timeout
    let w := waitOf word timeout s
    let r := w.st.env.nextBlock
    let read : State := { w.st with
      trace := w.st.trace ++ readBlockEvents s.params.dontCare w.st.env
      env := w.st.env.afterBytes 4
      csLvl := .high
      busHeld := false }
    (s.phase ≠ .idle → exec (.readSettings u timeout) s = .next (s.ran word [] .readSettingsRequiresIdle 0)) ∧
    (s.phase = .idle → w.ready = true → u = 1 →
      exec (.readSettings u timeout) s = .next (({ read with
        cfg := ⟨r.status.extractLsb' 3 1, r.status.extractLsb' 2 1, r.status.extractLsb' 1 1, r.adcon.extractLsb' 5 2,
          r.adcon.extractLsb' 3 2, r.adcon.extractLsb' 0 3, r.drate⟩
        chan := s.chan.set 0 r.mux } : State).returned .ok 0)) ∧
    (s.phase = .idle → w.ready = true → u = 0 → r.masked = s.settingsBlock.masked →
      exec (.readSettings u timeout) s = .next (read.returned .ok 0)) ∧
    (s.phase = .idle → w.ready = true → u = 0 → r.masked ≠ s.settingsBlock.masked →
      exec (.readSettings u timeout) s = .next (read.returned .outOfSyncSettings 0)) ∧
    (s.phase = .idle → w.ready = false → (s.env.fair = true ∨ w.byFairness = false) →
      exec (.readSettings u timeout) s = .next (w.st.returned .notReadyToReadSettings 0))

/-- The round trip (R218): after a settings write completed by `UPDATE`s alone, a comparing read that is answered with the written
values in the masked bits returns `OK`. -/
def Obligations.SettingsRoundTrip : Prop :=
  ∀ (timeout timeout' : BitVec 32) (s t u : State),
    s.phase = .idle → exec (.beginWriteSettings timeout) s = .next t → t.phase = .writingSettings →
    UpdateRun t u → u.phase = .idle →
    (waitOf (hostWord 0x03 0 0 timeout') timeout' u).ready = true →
    (waitOf (hostWord 0x03 0 0 timeout') timeout' u).st.env.nextBlock.masked = s.settingsBlock.masked →
    ∃ v, exec (.readSettings 0 timeout') u = .next v ∧ v.results = u.results ++ [resultWord .ok 0] ∧
      v.cfg = s.cfg ∧ v.chan = s.chan ∧ v.phase = .idle

/-- Adopt, then compare (R219): after an adopting read of bytes `r`, the settings bytes agree with `r` in the masked bits of the status,
control and data-rate registers, and of the multiplexer when `NEXT_MUX = 0`; a comparing read of the same bytes then returns `OK`. -/
def Obligations.AdoptThenCompare : Prop :=
  ∀ (timeout timeout' : BitVec 32) (s t : State),
    s.Inv → s.phase = .idle → (waitOf (hostWord 0x03 0 1 timeout) timeout s).ready = true →
    exec (.readSettings 1 timeout) s = .next t →
    let r := (waitOf (hostWord 0x03 0 1 timeout) timeout s).st.env.nextBlock
    let w := waitOf (hostWord 0x03 0 0 timeout') timeout' t
    t.settingsBlock.masked.status = r.masked.status ∧ t.settingsBlock.masked.adcon = r.masked.adcon ∧
    t.settingsBlock.masked.drate = r.masked.drate ∧
    (s.nextMux = 0 → t.settingsBlock.masked.mux = r.masked.mux) ∧
    (s.nextMux = 0 → w.ready = true → w.st.env.nextBlock = r →
      ∃ v, exec (.readSettings 0 timeout') t = .next v ∧ v.results = t.results ++ [resultWord .ok 0])

/-! ## Capture -/

/-- The sample decode (R200): 24-bit big-endian two's complement. -/
def Obligations.SampleDecodeIsTwosComplement : Prop :=
  ∀ b2 b1 b0 : Byte,
    let raw : Int := b2.toNat * 65536 + b1.toNat * 256 + b0.toNat
    (decodeSample b2 b1 b0).toInt = if b2.toNat < 128 then raw else raw - 16777216

/-- `BEGIN_CAPTURE` (R230): the precondition code; or the wait, then `Capturing` and one step that starts channel `NEXT_MUX` and, nothing
being in flight, reads nothing; or the timeout code. -/
def Obligations.BeginCaptureResult : Prop :=
  ∀ (timeout : BitVec 32) (s : State),
    let word := hostWord 0x04 0 0 timeout
    let w := waitOf word timeout s
    (s.phase ≠ .idle → exec (.beginCapture timeout) s = .next (s.ran word [] .beginCaptureRequiresIdle 0)) ∧
    (s.Inv → s.phase = .idle → w.ready = true →
      exec (.beginCapture timeout) s = .next (({ w.st with
        trace := w.st.trace ++ (openEvents ++ startEvents (s.chanAt s.nextMux) ++ closeEvents)
        phase := .capturing
        curMux := s.nextMux
        nextMux := BitVec.ofNat 8 ((s.nextMux.toNat + 1) % s.params.n.toNat) } : State).returned .ok 0)) ∧
    (s.phase = .idle → w.ready = false → (s.env.fair = true ∨ w.byFairness = false) →
      exec (.beginCapture timeout) s = .next (w.st.returned .notReadyToBeginCapture 0))

/-- `CONTINUE_CAPTURE` (R243): one pipelined step (R233), with no sample of the line. In `Capturing` it starts channel `NEXT_MUX`, then
reads the channel that was in flight into its slot; in `FinishingCapture` it reads, starts nothing and ends in `Idle`; elsewhere the word
is refused. -/
def Obligations.ContinueCaptureTakesOneStep : Prop :=
  ∀ s : State,
    let stored : State := { s with
      result := s.result.set s.curMux.toNat s.env.nextSample
      wr := s.wr.set s.curMux.toNat true
      newData := s.curMux
      env := s.env.afterBytes 3
      csLvl := .high
      busHeld := false }
    (s.Inv → s.phase = .capturing →
      exec .continueCapture s = .next (({ stored with
        curMux := s.nextMux
        nextMux := BitVec.ofNat 8 ((s.nextMux.toNat + 1) % s.params.n.toNat) } : State).ran 0x0500000000000000
        (openEvents ++ startEvents (s.chanAt s.nextMux) ++ readEvents s.params.dontCare s.env ++ closeEvents) .ok 0)) ∧
    (s.Inv → s.phase = .finishingCapture →
      exec .continueCapture s = .next (({ stored with phase := .idle, curMux := 0xFF } : State).ran 0x0500000000000000
        (openEvents ++ readEvents s.params.dontCare s.env ++ closeEvents) .ok 0)) ∧
    (s.phase ≠ .capturing → s.phase ≠ .finishingCapture →
      exec .continueCapture s = .next { s with trace := s.trace ++ [.op 0x0500000000000000], refused := true })

/-- `UPDATE` (R240): one sample in the four sampling states and none elsewhere; on `LOW` the phase ends or one pipelined step is taken;
always code 0. -/
def Obligations.UpdateByState : Prop :=
  ∀ s : State,
    let low := s.env.nextReady = .low
    let stored : State := { s with
      result := s.result.set s.curMux.toNat s.env.afterReady.nextSample
      wr := s.wr.set s.curMux.toNat true
      newData := s.curMux
      env := s.env.afterReady.afterBytes 3
      csLvl := .high
      busHeld := false }
    (s.phase = .uninitialized ∨ s.phase = .idle → exec .update s = .next (s.ran 0x0700000000000000 [] .ok 0)) ∧
    (s.phase ≠ .uninitialized → s.phase ≠ .idle → ¬ low →
      exec .update s = .next (({ s with env := s.env.afterReady } : State).ran 0x0700000000000000 [.drdy .high] .ok 0)) ∧
    (s.phase = .resetting ∨ s.phase = .writingSettings → low →
      exec .update s =
        .next (({ s with phase := .idle, env := s.env.afterReady } : State).ran 0x0700000000000000 [.drdy .low] .ok 0)) ∧
    (s.Inv → s.phase = .capturing → low →
      exec .update s = .next (({ stored with
        curMux := s.nextMux
        nextMux := BitVec.ofNat 8 ((s.nextMux.toNat + 1) % s.params.n.toNat) } : State).ran 0x0700000000000000
        (.drdy .low :: (openEvents ++ startEvents (s.chanAt s.nextMux) ++ readEvents s.params.dontCare s.env.afterReady ++
          closeEvents)) .ok 0)) ∧
    (s.Inv → s.phase = .finishingCapture → low →
      exec .update s = .next (({ stored with phase := .idle, curMux := 0xFF } : State).ran 0x0700000000000000
        (.drdy .low :: (openEvents ++ readEvents s.params.dontCare s.env.afterReady ++ closeEvents)) .ok 0))

/-- `END_CAPTURE` (R245): in `Capturing` it only marks the drain as pending; elsewhere it returns code 8 and changes nothing. -/
def Obligations.EndCaptureMarksTheDrain : Prop :=
  ∀ s : State,
    (s.phase = .capturing →
      exec .endCapture s = .next (({ s with phase := .finishingCapture } : State).ran 0x0600000000000000 [] .ok 0)) ∧
    (s.phase ≠ .capturing →
      exec .endCapture s = .next (s.ran 0x0600000000000000 [] .cannotEndWhenNotCapturing 0))

/-- The laws of the pipeline (R247, R248): after `m` steps of a capture that began at `NEXT_MUX = n0`, the channel in flight is
`(n0 + m - 1) mod N`, the next is `(n0 + m) mod N`, the marker names the channel step `m - 1` started, or is unchanged when `m = 1`, and the
drain step that follows reads channel `(n0 + m - 1) mod N`. -/
def Obligations.PipelineCyclesTheChannels : Prop :=
  ∀ (s t : State) (m : Nat), s.Inv → CaptureRun s m t →
    1 ≤ m ∧ t.phase = .capturing ∧
    t.curMux.toNat = (s.nextMux.toNat + m - 1) % s.params.n.toNat ∧
    t.nextMux.toNat = (s.nextMux.toNat + m) % s.params.n.toNat ∧
    (m = 1 → t.newData = s.newData) ∧
    (2 ≤ m → t.newData.toNat = (s.nextMux.toNat + m - 2) % s.params.n.toNat) ∧
    (∀ u v, exec .endCapture t = .next u → (u.env.nextReady = .low ∧ exec .update u = .next v ∨ exec .continueCapture u = .next v) →
      v.phase = .idle ∧ v.curMux = 0xFF ∧ v.newData.toNat = (s.nextMux.toNat + m - 1) % s.params.n.toNat)

/-- Coverage (R249): after `m >= N + 1` steps of a capture every result slot has been written, even if none was before. -/
def Obligations.EveryChannelIsRead : Prop :=
  ∀ (s t : State) (m : Nat), s.Inv → CaptureRun s m t → s.params.n.toNat + 1 ≤ m →
    ∀ i : BitVec 8, i < s.params.n → t.writtenAt i = true

/-! ## Blocking composite -/

/-- `BLOCKING_INIT` (R260 to R263) in a fair environment (R145; the flag `env.fair` is the model's, log 4): it ends with one of its six
codes, leaves the state of R262's table for it, and has put on the bus what that table says: the reset pulse and `BEGIN` unless code 4,
the settings write before codes 6, 3 and 0, the settings read for code 0. Code 0 leaves `CFG` and `CHAN[0]` as the four bytes read say;
every code but 0 and 4 follows a clock reading at which the overall budget has expired. -/
def Obligations.BlockingInitOutcomes : Prop :=
  ∀ (timeout : BitVec 32) (s : State), s.env.fair = true →
    let b := s.settingsBlock
    let wrote : List Byte := [0x50, 0x03, b.status, b.mux, b.adcon, b.drate]
    let pulse := if s.params.resetStrategy = .controlPin then controlPulseEvents else clockPulseEvents
    ∃ (t : State) (c : Code) (t0 : Nat) (events : List Event),
      exec (.blockingInit timeout) s = .next t ∧
      t.results = s.results ++ [resultWord c 0] ∧
      t.trace = s.trace ++ .op (hostWord 0x08 0 0 timeout) :: .now t0 :: (events ++ [.ret c 0]) ∧
      t.nextMux = s.nextMux ∧ t.result = s.result ∧ t.wr = s.wr ∧ t.newData = s.newData ∧ t.oos = s.oos ∧
      (c ≠ .ok → t.cfg = s.cfg ∧ t.chan = s.chan) ∧
      (s.params.resetStrategy = .none →
        c = .invalidResetMethod ∧ events = [] ∧ t.phase = s.phase ∧ t.curMux = s.curMux) ∧
      (s.params.resetStrategy ≠ .none →
        t.curMux = 0xFF ∧ t.busOn = true ∧ (pulse ++ [.busBegin]) <+: events ∧
        (c ≠ .ok → readBytes events = [] ∧
          ∃ n, t0 ≤ n ∧ events.getLast? = some (.now n) ∧ expired s.params.waitCmp (n - t0) timeout.toNat = true) ∧
        (c = .ok → ∃ r : Block, readBytes events = [r.status, r.mux, r.adcon, r.drate] ∧
          t.cfg = r.fields ∧ t.chan = s.chan.set 0 r.mux) ∧
        ((c = .timeoutWhileResetting ∧ t.phase = .resetting ∧ sentBytes events = []) ∨
          (c = .notReadyToWriteSettings ∧ t.phase = .idle ∧ sentBytes events = []) ∨
          (c = .timeoutWhileWritingSettings ∧ t.phase = .writingSettings ∧ sentBytes events = wrote) ∨
          (c = .notReadyToReadSettings ∧ t.phase = .idle ∧ sentBytes events = wrote) ∨
          (c = .ok ∧ t.phase = .idle ∧ sentBytes events = wrote ++ [0x10, 0x03])))

/-! ## Host accessors -/

/-- `RDREG` (R270): the thirteen selectors return their element, zero-extended, and change nothing; a reserved selector is refused. -/
def Obligations.RdregReturnsTheElement : Prop :=
  ∀ (s : State) (sel : BitVec 8),
    let word := hostWord 0x10 sel 0 0
    let values : List Nat := [(phaseCode s.phase).toNat, s.cfg.order.toNat, s.cfg.acal.toNat, s.cfg.bufen.toNat, s.cfg.clkout.toNat,
      s.cfg.sdcs.toNat, s.cfg.pga.toNat, s.cfg.drate.toNat, s.oos.toNat, s.nextMux.toNat, s.curMux.toNat, s.newData.toNat,
      s.params.n.toNat]
    (∀ v, values[sel.toNat]? = some v → exec (.rdreg sel) s = .next (s.ran word [] .ok (BitVec.ofNat 32 v))) ∧
    (13 ≤ sel.toNat → exec (.rdreg sel) s = .next { s with trace := s.trace ++ [.op word], refused := true }) ∧
    [Phase.uninitialized, .resetting, .writingSettings, .idle, .capturing, .finishingCapture].map (fun p => (phaseCode p).toNat) =
      [0, 1, 2, 3, 4, 5]

/-- `WRREG` (R271): a legal value of a writable selector is stored in that element alone; every other selector and every value too wide is
refused, never truncated (R117). -/
def Obligations.WrregWritesOneElement : Prop :=
  ∀ (s : State) (val : BitVec 8),
    (val.toNat < 2 → exec (.wrreg 1 val) s =
      .next (({ s with cfg := { s.cfg with order := BitVec.ofNat 1 val.toNat } } : State).ran (hostWord 0x11 1 val 0) [] .ok 0)) ∧
    (val.toNat < 2 → exec (.wrreg 2 val) s =
      .next (({ s with cfg := { s.cfg with acal := BitVec.ofNat 1 val.toNat } } : State).ran (hostWord 0x11 2 val 0) [] .ok 0)) ∧
    (val.toNat < 2 → exec (.wrreg 3 val) s =
      .next (({ s with cfg := { s.cfg with bufen := BitVec.ofNat 1 val.toNat } } : State).ran (hostWord 0x11 3 val 0) [] .ok 0)) ∧
    (val.toNat < 4 → exec (.wrreg 4 val) s =
      .next (({ s with cfg := { s.cfg with clkout := BitVec.ofNat 2 val.toNat } } : State).ran (hostWord 0x11 4 val 0) [] .ok 0)) ∧
    (val.toNat < 4 → exec (.wrreg 5 val) s =
      .next (({ s with cfg := { s.cfg with sdcs := BitVec.ofNat 2 val.toNat } } : State).ran (hostWord 0x11 5 val 0) [] .ok 0)) ∧
    (val.toNat < 8 → exec (.wrreg 6 val) s =
      .next (({ s with cfg := { s.cfg with pga := BitVec.ofNat 3 val.toNat } } : State).ran (hostWord 0x11 6 val 0) [] .ok 0)) ∧
    (exec (.wrreg 7 val) s =
      .next (({ s with cfg := { s.cfg with drate := val } } : State).ran (hostWord 0x11 7 val 0) [] .ok 0)) ∧
    (val.toNat < 2 → exec (.wrreg 8 val) s =
      .next (({ s with oos := BitVec.ofNat 1 val.toNat } : State).ran (hostWord 0x11 8 val 0) [] .ok 0)) ∧
    (∀ sel, (Instr.wrreg sel val).refusedIn s →
      exec (.wrreg sel val) s =
        .next { s with trace := s.trace ++ [.op (hostWord 0x11 sel val 0)], refused := true })

/-- `RDCHAN` and `WRCHAN` (R272, R273): a channel's entry is returned, or replaced alone, the table's length standing; an index from `N`
on is refused. -/
def Obligations.ChannelTableAccess : Prop :=
  ∀ (s : State) (idx val : BitVec 8), s.Inv →
    (idx.toNat < s.params.n.toNat →
      (∃ entry, s.chan[idx.toNat]? = some entry ∧
        exec (.rdchan idx) s = .next (s.ran (hostWord 0x12 idx 0 0) [] .ok (BitVec.ofNat 32 entry.toNat))) ∧
      exec (.wrchan idx val) s = .next (({ s with chan := s.chan.set idx.toNat val } : State).ran (hostWord 0x13 idx val 0) [] .ok 0)) ∧
    (s.params.n.toNat ≤ idx.toNat →
      exec (.rdchan idx) s = .next { s with trace := s.trace ++ [.op (hostWord 0x12 idx 0 0)], refused := true } ∧
      exec (.wrchan idx val) s = .next { s with trace := s.trace ++ [.op (hostWord 0x13 idx val 0)], refused := true })

/-- `RDRES` (R274): a written slot's value is returned and nothing changes; an index from `N` on is refused. That the read of an unwritten
slot appends `OP(w)` and sets the fault mark, with no `RET` and no result word, is the model's reading of R274 with R146 (log 10). -/
def Obligations.ResultBufferRead : Prop :=
  ∀ (s : State) (idx : BitVec 8), s.Inv →
    let word := hostWord 0x14 idx 0 0
    (idx.toNat < s.params.n.toNat → s.writtenAt idx = true →
      ∃ v, s.result[idx.toNat]? = some v ∧ exec (.rdres idx) s = .next (s.ran word [] .ok v)) ∧
    (idx.toNat < s.params.n.toNat → s.writtenAt idx = false →
      exec (.rdres idx) s = .next { s with trace := s.trace ++ [.op word], faulted := true }) ∧
    (s.params.n.toNat ≤ idx.toNat →
      exec (.rdres idx) s = .next { s with trace := s.trace ++ [.op word], refused := true })

/-- `TAKE_NEW_DATA` (R275): it returns the marker and clears it to the sentinel, and nothing else changes. -/
def Obligations.TakeNewDataReadsAndClears : Prop :=
  ∀ s : State,
    exec .takeNewData s =
      .next (({ s with newData := 0xFF } : State).ran 0x1500000000000000 [] .ok (BitVec.ofNat 32 s.newData.toNat))

/-! ## Bus commands

That a bus command runs as an instruction of its own, in every `STATE`, without a frame or a result word, is the model's choice (log 11). -/

/-- `WREG` (R192, R120): the command byte `0101rrrr`, the count byte `0000nnnn`, then the value bytes, and nothing else. What it
says of a command with `r + n + 1 > 16`, beyond the legal range of R190, is the model's choice (log 25). -/
def Obligations.WregSendsHeaderAndValues : Prop :=
  ∀ (r n : BitVec 4) (values : List Byte) (s : State),
    exec (.wreg r n values) s = .next { s with
      trace := s.trace ++ (.tx (BitVec.ofNat 8 (0x50 + r.toNat)) :: .tx (BitVec.ofNat 8 n.toNat) :: values.map Event.tx) }

/-- `RREG` (R193, R121): the command byte `0001rrrr`, the count byte, `DELAY(T_6)`, then `n + 1` bytes clocked in, each byte a
draw. What it says of a command with `r + n + 1 > 16`, beyond the legal range of R190, is the model's choice (log 25). -/
def Obligations.RregClocksInTheRegisters : Prop :=
  ∀ (r n : BitVec 4) (s : State),
    exec (.rreg r n) s = .next { s with
      trace := s.trace ++ (.tx (BitVec.ofNat 8 (0x10 + r.toNat)) :: .tx (BitVec.ofNat 8 n.toNat) :: .delay .t6 ::
        (List.range (n.toNat + 1)).map (fun k => Event.xfer s.params.dontCare (s.env.byteAt k)))
      env := s.env.afterBytes (n.toNat + 1) }

/-- `SYNC`, `WAKEUP` and `RDATA` (R194, R195, R196): their byte, the delay their rule gives, and for `RDATA` three bytes clocked in. -/
def Obligations.SingleByteCommands : Prop :=
  ∀ s : State,
    exec .sync s = .next { s with trace := s.trace ++ [.tx 0xFC, .delay .t11Long] } ∧
    exec .wakeup s = .next { s with trace := s.trace ++ [.tx 0x00] } ∧
    exec .rdata s = .next { s with
      trace := s.trace ++ [.tx 0x01, .delay .t6, .xfer s.params.dontCare (s.env.byteAt 0),
        .xfer s.params.dontCare (s.env.byteAt 1), .xfer s.params.dontCare (s.env.byteAt 2)]
      env := s.env.afterBytes 3 }

/-! ## Blocking composite, stage by stage -/

/-- `BLOCKING_INIT` (R260) along its stages, from every state: the reading `t0` and the reset, the first polling loop, the settings write
with the budget left, the second polling loop, the adopting read with the budget left. Each stage that fails returns its code and leaves
what the earlier ones did; when all succeed, code 0 is returned and `CFG` and `CHAN[0]` are those of the four bytes read. A stage that
ends by nothing but the fairness assumption (R145) goes on only in a fair environment, which is the model's rendering (log 4). -/
def Obligations.BlockingInitStages : Prop :=
  ∀ (timeout : BitVec 32) (s : State),
    let begun := ({ s with trace := s.trace ++ [.op (hostWord 0x08 0 0 timeout)] } : State).nowMs
    let t0 := begun.1
    let left (reading : Nat) : Nat := timeout.toNat - (reading - t0)
    let pulse := if s.params.resetStrategy = .controlPin then controlPulseEvents else clockPulseEvents
    let reset : State := { begun.2 with
      trace := begun.2.trace ++ (pulse ++ [.busBegin])
      phase := .resetting
      curMux := 0xFF
      rstLvl := .high
      csLvl := if s.params.resetStrategy = .controlPin then s.csLvl else .high
      busOn := true }
    let p1 := pollUntilIdle t0 timeout.toNat reset
    let n1 := p1.st.nowMs
    let w1 := readyWait (left n1.1) n1.2
    let wrote : State := { w1.st with
      trace := w1.st.trace ++ writeBlockEvents s.settingsBlock
      phase := .writingSettings
      csLvl := .high
      busHeld := false }
    let p2 := pollUntilIdle t0 timeout.toNat wrote
    let n2 := p2.st.nowMs
    let w2 := readyWait (left n2.1) n2.2
    let r := w2.st.env.nextBlock
    let failed (e : WaitEnd) : Prop := e.ready = false ∧ (s.env.fair = true ∨ e.byFairness = false)
    (s.params.resetStrategy = .none → exec (.blockingInit timeout) s = .next (begun.2.returned .invalidResetMethod 0)) ∧
    (s.params.resetStrategy ≠ .none →
      (failed p1 → exec (.blockingInit timeout) s = .next (p1.st.returned .timeoutWhileResetting 0)) ∧
      (p1.ready = true → failed w1 → exec (.blockingInit timeout) s = .next (w1.st.returned .notReadyToWriteSettings 0)) ∧
      (p1.ready = true → w1.ready = true → failed p2 →
        exec (.blockingInit timeout) s = .next (p2.st.returned .timeoutWhileWritingSettings 0)) ∧
      (p1.ready = true → w1.ready = true → p2.ready = true → failed w2 →
        exec (.blockingInit timeout) s = .next (w2.st.returned .notReadyToReadSettings 0)) ∧
      (p1.ready = true → w1.ready = true → p2.ready = true → w2.ready = true →
        exec (.blockingInit timeout) s = .next (({ w2.st with
          trace := w2.st.trace ++ readBlockEvents s.params.dontCare w2.st.env
          env := w2.st.env.afterBytes 4
          csLvl := .high
          busHeld := false
          cfg := r.fields
          chan := s.chan.set 0 r.mux } : State).returned .ok 0)))

/-- A polling loop of `BLOCKING_INIT` (R260), in `Resetting` or `WritingSettings`: rounds of a `HIGH` sample and a clock reading not yet
expired, then a `LOW` sample, which ends it in `Idle`, or a `HIGH` sample and an expired reading, which ends it with the state as it was.
The last clause holds also where only the fairness assumption ends the loop (R145), and is the model's rendering there (log 4). -/
def Obligations.PollingLoopEnds : Prop :=
  ∀ (t0 timeout : Nat) (s : State), s.phase = .resetting ∨ s.phase = .writingSettings →
    let p := pollUntilIdle t0 timeout s
    let cmp := s.params.waitCmp
    p.st = { s with trace := p.st.trace, env := p.st.env, phase := if p.ready = true then .idle else s.phase } ∧
    p.st.env.fair = s.env.fair ∧
    ∃ waited : List Nat,
      let rounds : List Event := waited.flatMap (fun t => [.drdy .high, .now t])
      (∀ t ∈ waited, expired cmp (t - t0) timeout = false) ∧
      (p.ready = true → p.st.trace = s.trace ++ (rounds ++ [.drdy .low])) ∧
      (p.ready = false → ∃ t, expired cmp (t - t0) timeout = true ∧ p.st.trace = s.trace ++ (rounds ++ [.drdy .high, .now t]))

/-- Corner cases of the budget (R263, R143): with `timeout = 0` and `WAIT_CMP = GE`, `BLOCKING_INIT` returns code 5 at once when its first
`UPDATE` samples `HIGH`, whether or not the environment is fair, and never when that sample is `LOW`; a wait without budget still
succeeds on a first `LOW` sample; and no wait with `timeout = 0` and `GE` rests on the fairness assumption (log 4). -/
def Obligations.ZeroBudgetCorners : Prop :=
  (∀ s : State, s.params.resetStrategy ≠ .none → s.params.waitCmp = .ge →
    let begun := ({ s with trace := s.trace ++ [.op (hostWord 0x08 0 0 0)] } : State).nowMs
    let pulse := if s.params.resetStrategy = .controlPin then controlPulseEvents else clockPulseEvents
    (begun.2.env.nextReady = .high →
      ∃ (t : State) (n : Nat), exec (.blockingInit 0) s = .next t ∧ t.phase = .resetting ∧
        t.results = s.results ++ [resultWord .timeoutWhileResetting 0] ∧
        t.trace = s.trace ++ .op (hostWord 0x08 0 0 0) :: .now begun.1 ::
          (pulse ++ [.busBegin, .drdy .high, .now n, .ret .timeoutWhileResetting 0])) ∧
    (begun.2.env.nextReady = .low →
      ∀ t, exec (.blockingInit 0) s = .next t → t.results ≠ s.results ++ [resultWord .timeoutWhileResetting 0])) ∧
  (∀ (s : State) (order : List Sample) (ready : List Level), s.env.order = .readyLine :: order → s.env.ready = .low :: ready →
    (readyWait 0 s).ready = true ∧ (readyWait 0 s).st.trace = s.trace ++ [.now s.nowMs.1, .drdy .low]) ∧
  (∀ s : State, s.params.waitCmp = .ge → (readyWait 0 s).byFairness = false)
end

