-- ==== Sys2Proof/Laws/Decode.lean ====
section
/-! SUPPORT. The fields of a built word, and what a mask of a table row says of them. -/

namespace Sys2Proof

/-! ## Fields of a built word (R100, R101) -/

theorem opcOf_hostWord (o a b : BitVec 8) (t : BitVec 32) : opcOf (hostWord o a b t) = o := by
  unfold opcOf hostWord
  ext i hi
  simp [BitVec.getElem_extractLsb']
  grind

theorem aOf_hostWord (o a b : BitVec 8) (t : BitVec 32) : aOf (hostWord o a b t) = a := by
  unfold aOf hostWord
  ext i hi
  simp [BitVec.getElem_extractLsb']
  grind

theorem bOf_hostWord (o a b : BitVec 8) (t : BitVec 32) : bOf (hostWord o a b t) = b := by
  unfold bOf hostWord
  ext i hi
  simp [BitVec.getElem_extractLsb']
  grind

theorem rsvOf_hostWord (o a b : BitVec 8) (t : BitVec 32) : rsvOf (hostWord o a b t) = 0 := by
  unfold rsvOf hostWord
  ext i hi
  simp [BitVec.getElem_extractLsb']
  grind

theorem tOf_hostWord (o a b : BitVec 8) (t : BitVec 32) : tOf (hostWord o a b t) = t := by
  unfold tOf hostWord
  ext i hi
  simp [BitVec.getElem_extractLsb']
  grind

/-- The five fields are the whole word. -/
theorem fields_append (w : CommandWord) : opcOf w ++ aOf w ++ bOf w ++ rsvOf w ++ tOf w = w := by
  unfold opcOf aOf bOf rsvOf tOf
  ext i hi
  simp
  grind

theorem hostWord_fields (w : CommandWord) (h : rsvOf w = 0) : hostWord (opcOf w) (aOf w) (bOf w) (tOf w) = w := by
  conv_rhs => rw [← fields_append w, h]
  rfl

theorem updateLocalByte_bit (u : BitVec 1) : (updateLocalByte u).extractLsb' 0 1 = u := by
  revert u
  decide

theorem updateLocalByte_rest (u : BitVec 1) : (updateLocalByte u).extractLsb' 1 7 = 0 := by
  revert u
  decide

theorem updateLocalByte_of_rest (b : BitVec 8) (h : b.extractLsb' 1 7 = 0) : updateLocalByte (b.extractLsb' 0 1) = b := by
  revert b
  decide

/-! ## Header bytes of a bus command (R120, R121) -/

theorem regOf_wreg (r : BitVec 4) : regOf (regCommandByte Config.cmdWreg r) = r := by
  revert r
  decide

theorem regOf_rreg (r : BitVec 4) : regOf (regCommandByte Config.cmdRreg r) = r := by
  revert r
  decide

theorem regOf_countByte (n : BitVec 4) : regOf (countByte n) = n := by
  revert n
  decide

theorem countByte_high (n : BitVec 4) : (countByte n).extractLsb' 4 4 = 0 := by
  revert n
  decide

theorem countByte_regOf (b : BitVec 8) (h : b.extractLsb' 4 4 = 0) : countByte (regOf b) = b := by
  revert b
  decide

/-- The header bytes of `WREG` are no other command's (R123). -/
theorem wregByte_distinct (r : BitVec 4) : regCommandByte Config.cmdWreg r ≠ Config.cmdSync ∧
    regCommandByte Config.cmdWreg r ≠ Config.cmdWakeup ∧ regCommandByte Config.cmdWreg r ≠ Config.cmdRdata := by
  revert r
  decide

/-- The header bytes of `RREG` are no other command's (R123). -/
theorem rregByte_distinct (r s : BitVec 4) : regCommandByte Config.cmdRreg r ≠ Config.cmdSync ∧
    regCommandByte Config.cmdRreg r ≠ Config.cmdWakeup ∧ regCommandByte Config.cmdRreg r ≠ Config.cmdRdata ∧
    regCommandByte Config.cmdRreg r ≠ regCommandByte Config.cmdWreg s := by
  revert r s
  decide

/-! ## Accepting (R106) -/

theorem acceptIf_ok (z : Bool) (i j : Instr) : acceptIf z i = .ok j ↔ z = true ∧ i = j := by
  cases z <;> simp [acceptIf]

theorem acceptIf_error (z : Bool) (i : Instr) (e : DecodeError) : acceptIf z i = .error e ↔ z = false ∧ e = .reservedField := by
  cases z <;> simp [acceptIf, eq_comm]

/-! ## Masks -/

theorem append_inj {n m : Nat} (x x' : BitVec n) (y y' : BitVec m) : x ++ y = x' ++ y' ↔ x = x' ∧ y = y' := by
  constructor
  · intro h
    have h1 := congrArg (BitVec.extractLsb' m n) h
    have h2 := congrArg (BitVec.extractLsb' 0 m) h
    constructor
    · ext i hi
      have := congrArg (fun v => v.getLsbD i) h1
      simp [BitVec.getLsbD_append] at this
      grind
    · ext i hi
      have := congrArg (fun v => v.getLsbD i) h2
      simp [BitVec.getLsbD_append] at this
      grind
  · rintro ⟨rfl, rfl⟩
    rfl

theorem masked_fields (o a b r m1 m2 m3 m4 p1 p2 p3 p4 : BitVec 8) (t m5 p5 : BitVec 32) :
    (o ++ a ++ b ++ r ++ t) &&& (m1 ++ m2 ++ m3 ++ m4 ++ m5) = p1 ++ p2 ++ p3 ++ p4 ++ p5 ↔
      o &&& m1 = p1 ∧ a &&& m2 = p2 ∧ b &&& m3 = p3 ∧ r &&& m4 = p4 ∧ t &&& m5 = p5 := by
  simp only [BitVec.and_append, append_inj, and_assoc]

/-- A row of the table, field by field. -/
theorem row_iff_fields (w : CommandWord) (m1 m2 m3 m4 p1 p2 p3 p4 : BitVec 8) (m5 p5 : BitVec 32) (mask pattern : CommandWord)
    (hm : m1 ++ m2 ++ m3 ++ m4 ++ m5 = mask) (hp : p1 ++ p2 ++ p3 ++ p4 ++ p5 = pattern) :
    w &&& mask = pattern ↔
      opcOf w &&& m1 = p1 ∧ aOf w &&& m2 = p2 ∧ bOf w &&& m3 = p3 ∧ rsvOf w &&& m4 = p4 ∧ tOf w &&& m5 = p5 := by
  rw [← hm, ← hp, ← masked_fields, fields_append]

/-- The same of a built word. -/
theorem hostWord_row (o a b : BitVec 8) (t : BitVec 32) (m1 m2 m3 p1 p2 p3 : BitVec 8) (m5 p5 : BitVec 32)
    (mask pattern : CommandWord) (hm : m1 ++ m2 ++ m3 ++ (0xFF : BitVec 8) ++ m5 = mask)
    (hp : p1 ++ p2 ++ p3 ++ (0 : BitVec 8) ++ p5 = pattern) (h1 : o &&& m1 = p1) (h2 : a &&& m2 = p2) (h3 : b &&& m3 = p3)
    (h5 : t &&& m5 = p5) : hostWord o a b t &&& mask = pattern := by
  rw [row_iff_fields _ _ _ _ _ _ _ _ _ _ _ _ _ hm hp, opcOf_hostWord, aOf_hostWord, bOf_hostWord, rsvOf_hostWord, tOf_hostWord]
  exact ⟨h1, h2, h3, by decide, h5⟩

theorem and_zero8 (b : BitVec 8) : b &&& 0 = 0 := by
  revert b
  decide

theorem updateLocalByte_masked (u : BitVec 1) : updateLocalByte u &&& 0xFE = 0 := by
  revert u
  decide

end Sys2Proof
end

