-- ==== Sys2Proof/Laws/State.lean ====
section
/-! SUPPORT. One lemma per field per update of the state, each true by unfolding, so that no later proof unfolds a record update. -/

namespace Sys2Proof.Machine

/-! ### `log` -/

@[simp] theorem log_params (e : Event) (s : State) : (s.log e).params = s.params := rfl
@[simp] theorem log_phase (e : Event) (s : State) : (s.log e).phase = s.phase := rfl
@[simp] theorem log_cfg (e : Event) (s : State) : (s.log e).cfg = s.cfg := rfl
@[simp] theorem log_chan (e : Event) (s : State) : (s.log e).chan = s.chan := rfl
@[simp] theorem log_nextMux (e : Event) (s : State) : (s.log e).nextMux = s.nextMux := rfl
@[simp] theorem log_curMux (e : Event) (s : State) : (s.log e).curMux = s.curMux := rfl
@[simp] theorem log_result (e : Event) (s : State) : (s.log e).result = s.result := rfl
@[simp] theorem log_wr (e : Event) (s : State) : (s.log e).wr = s.wr := rfl
@[simp] theorem log_newData (e : Event) (s : State) : (s.log e).newData = s.newData := rfl
@[simp] theorem log_oos (e : Event) (s : State) : (s.log e).oos = s.oos := rfl
@[simp] theorem log_csLvl (e : Event) (s : State) : (s.log e).csLvl = s.csLvl := rfl
@[simp] theorem log_syncLvl (e : Event) (s : State) : (s.log e).syncLvl = s.syncLvl := rfl
@[simp] theorem log_rstLvl (e : Event) (s : State) : (s.log e).rstLvl = s.rstLvl := rfl
@[simp] theorem log_busOn (e : Event) (s : State) : (s.log e).busOn = s.busOn := rfl
@[simp] theorem log_busHeld (e : Event) (s : State) : (s.log e).busHeld = s.busHeld := rfl
@[simp] theorem log_refused (e : Event) (s : State) : (s.log e).refused = s.refused := rfl
@[simp] theorem log_faulted (e : Event) (s : State) : (s.log e).faulted = s.faulted := rfl
@[simp] theorem log_trace (e : Event) (s : State) : (s.log e).trace = s.trace ++ [e] := rfl
@[simp] theorem log_results (e : Event) (s : State) : (s.log e).results = s.results := rfl
@[simp] theorem log_commands (e : Event) (s : State) : (s.log e).commands = s.commands := rfl
@[simp] theorem log_env (e : Event) (s : State) : (s.log e).env = s.env := rfl

/-! ### `busAcquire` -/

@[simp] theorem busAcquire_params (s : State) : (s.busAcquire).params = s.params := rfl
@[simp] theorem busAcquire_phase (s : State) : (s.busAcquire).phase = s.phase := rfl
@[simp] theorem busAcquire_cfg (s : State) : (s.busAcquire).cfg = s.cfg := rfl
@[simp] theorem busAcquire_chan (s : State) : (s.busAcquire).chan = s.chan := rfl
@[simp] theorem busAcquire_nextMux (s : State) : (s.busAcquire).nextMux = s.nextMux := rfl
@[simp] theorem busAcquire_curMux (s : State) : (s.busAcquire).curMux = s.curMux := rfl
@[simp] theorem busAcquire_result (s : State) : (s.busAcquire).result = s.result := rfl
@[simp] theorem busAcquire_wr (s : State) : (s.busAcquire).wr = s.wr := rfl
@[simp] theorem busAcquire_newData (s : State) : (s.busAcquire).newData = s.newData := rfl
@[simp] theorem busAcquire_oos (s : State) : (s.busAcquire).oos = s.oos := rfl
@[simp] theorem busAcquire_csLvl (s : State) : (s.busAcquire).csLvl = s.csLvl := rfl
@[simp] theorem busAcquire_syncLvl (s : State) : (s.busAcquire).syncLvl = s.syncLvl := rfl
@[simp] theorem busAcquire_rstLvl (s : State) : (s.busAcquire).rstLvl = s.rstLvl := rfl
@[simp] theorem busAcquire_busOn (s : State) : (s.busAcquire).busOn = s.busOn := rfl
@[simp] theorem busAcquire_busHeld (s : State) : (s.busAcquire).busHeld = true := rfl
@[simp] theorem busAcquire_refused (s : State) : (s.busAcquire).refused = s.refused := rfl
@[simp] theorem busAcquire_faulted (s : State) : (s.busAcquire).faulted = s.faulted := rfl
@[simp] theorem busAcquire_trace (s : State) : (s.busAcquire).trace = s.trace ++ [.acq] := rfl
@[simp] theorem busAcquire_results (s : State) : (s.busAcquire).results = s.results := rfl
@[simp] theorem busAcquire_commands (s : State) : (s.busAcquire).commands = s.commands := rfl
@[simp] theorem busAcquire_env (s : State) : (s.busAcquire).env = s.env := rfl

/-! ### `busRelease` -/

@[simp] theorem busRelease_params (s : State) : (s.busRelease).params = s.params := rfl
@[simp] theorem busRelease_phase (s : State) : (s.busRelease).phase = s.phase := rfl
@[simp] theorem busRelease_cfg (s : State) : (s.busRelease).cfg = s.cfg := rfl
@[simp] theorem busRelease_chan (s : State) : (s.busRelease).chan = s.chan := rfl
@[simp] theorem busRelease_nextMux (s : State) : (s.busRelease).nextMux = s.nextMux := rfl
@[simp] theorem busRelease_curMux (s : State) : (s.busRelease).curMux = s.curMux := rfl
@[simp] theorem busRelease_result (s : State) : (s.busRelease).result = s.result := rfl
@[simp] theorem busRelease_wr (s : State) : (s.busRelease).wr = s.wr := rfl
@[simp] theorem busRelease_newData (s : State) : (s.busRelease).newData = s.newData := rfl
@[simp] theorem busRelease_oos (s : State) : (s.busRelease).oos = s.oos := rfl
@[simp] theorem busRelease_csLvl (s : State) : (s.busRelease).csLvl = s.csLvl := rfl
@[simp] theorem busRelease_syncLvl (s : State) : (s.busRelease).syncLvl = s.syncLvl := rfl
@[simp] theorem busRelease_rstLvl (s : State) : (s.busRelease).rstLvl = s.rstLvl := rfl
@[simp] theorem busRelease_busOn (s : State) : (s.busRelease).busOn = s.busOn := rfl
@[simp] theorem busRelease_busHeld (s : State) : (s.busRelease).busHeld = false := rfl
@[simp] theorem busRelease_refused (s : State) : (s.busRelease).refused = s.refused := rfl
@[simp] theorem busRelease_faulted (s : State) : (s.busRelease).faulted = s.faulted := rfl
@[simp] theorem busRelease_trace (s : State) : (s.busRelease).trace = s.trace ++ [.rel] := rfl
@[simp] theorem busRelease_results (s : State) : (s.busRelease).results = s.results := rfl
@[simp] theorem busRelease_commands (s : State) : (s.busRelease).commands = s.commands := rfl
@[simp] theorem busRelease_env (s : State) : (s.busRelease).env = s.env := rfl

/-! ### `busBegin` -/

@[simp] theorem busBegin_params (s : State) : (s.busBegin).params = s.params := rfl
@[simp] theorem busBegin_phase (s : State) : (s.busBegin).phase = s.phase := rfl
@[simp] theorem busBegin_cfg (s : State) : (s.busBegin).cfg = s.cfg := rfl
@[simp] theorem busBegin_chan (s : State) : (s.busBegin).chan = s.chan := rfl
@[simp] theorem busBegin_nextMux (s : State) : (s.busBegin).nextMux = s.nextMux := rfl
@[simp] theorem busBegin_curMux (s : State) : (s.busBegin).curMux = s.curMux := rfl
@[simp] theorem busBegin_result (s : State) : (s.busBegin).result = s.result := rfl
@[simp] theorem busBegin_wr (s : State) : (s.busBegin).wr = s.wr := rfl
@[simp] theorem busBegin_newData (s : State) : (s.busBegin).newData = s.newData := rfl
@[simp] theorem busBegin_oos (s : State) : (s.busBegin).oos = s.oos := rfl
@[simp] theorem busBegin_csLvl (s : State) : (s.busBegin).csLvl = s.csLvl := rfl
@[simp] theorem busBegin_syncLvl (s : State) : (s.busBegin).syncLvl = s.syncLvl := rfl
@[simp] theorem busBegin_rstLvl (s : State) : (s.busBegin).rstLvl = s.rstLvl := rfl
@[simp] theorem busBegin_busOn (s : State) : (s.busBegin).busOn = true := rfl
@[simp] theorem busBegin_busHeld (s : State) : (s.busBegin).busHeld = s.busHeld := rfl
@[simp] theorem busBegin_refused (s : State) : (s.busBegin).refused = s.refused := rfl
@[simp] theorem busBegin_faulted (s : State) : (s.busBegin).faulted = s.faulted := rfl
@[simp] theorem busBegin_trace (s : State) : (s.busBegin).trace = s.trace ++ [.busBegin] := rfl
@[simp] theorem busBegin_results (s : State) : (s.busBegin).results = s.results := rfl
@[simp] theorem busBegin_commands (s : State) : (s.busBegin).commands = s.commands := rfl
@[simp] theorem busBegin_env (s : State) : (s.busBegin).env = s.env := rfl

/-! ### `busEnd` -/

@[simp] theorem busEnd_params (s : State) : (s.busEnd).params = s.params := rfl
@[simp] theorem busEnd_phase (s : State) : (s.busEnd).phase = s.phase := rfl
@[simp] theorem busEnd_cfg (s : State) : (s.busEnd).cfg = s.cfg := rfl
@[simp] theorem busEnd_chan (s : State) : (s.busEnd).chan = s.chan := rfl
@[simp] theorem busEnd_nextMux (s : State) : (s.busEnd).nextMux = s.nextMux := rfl
@[simp] theorem busEnd_curMux (s : State) : (s.busEnd).curMux = s.curMux := rfl
@[simp] theorem busEnd_result (s : State) : (s.busEnd).result = s.result := rfl
@[simp] theorem busEnd_wr (s : State) : (s.busEnd).wr = s.wr := rfl
@[simp] theorem busEnd_newData (s : State) : (s.busEnd).newData = s.newData := rfl
@[simp] theorem busEnd_oos (s : State) : (s.busEnd).oos = s.oos := rfl
@[simp] theorem busEnd_csLvl (s : State) : (s.busEnd).csLvl = s.csLvl := rfl
@[simp] theorem busEnd_syncLvl (s : State) : (s.busEnd).syncLvl = s.syncLvl := rfl
@[simp] theorem busEnd_rstLvl (s : State) : (s.busEnd).rstLvl = s.rstLvl := rfl
@[simp] theorem busEnd_busOn (s : State) : (s.busEnd).busOn = false := rfl
@[simp] theorem busEnd_busHeld (s : State) : (s.busEnd).busHeld = s.busHeld := rfl
@[simp] theorem busEnd_refused (s : State) : (s.busEnd).refused = s.refused := rfl
@[simp] theorem busEnd_faulted (s : State) : (s.busEnd).faulted = s.faulted := rfl
@[simp] theorem busEnd_trace (s : State) : (s.busEnd).trace = s.trace ++ [.busEnd] := rfl
@[simp] theorem busEnd_results (s : State) : (s.busEnd).results = s.results := rfl
@[simp] theorem busEnd_commands (s : State) : (s.busEnd).commands = s.commands := rfl
@[simp] theorem busEnd_env (s : State) : (s.busEnd).env = s.env := rfl

/-! ### `drivePin_cs` -/

@[simp] theorem drivePin_cs_params (l : Level) (s : State) : (s.drivePin .cs l).params = s.params := rfl
@[simp] theorem drivePin_cs_phase (l : Level) (s : State) : (s.drivePin .cs l).phase = s.phase := rfl
@[simp] theorem drivePin_cs_cfg (l : Level) (s : State) : (s.drivePin .cs l).cfg = s.cfg := rfl
@[simp] theorem drivePin_cs_chan (l : Level) (s : State) : (s.drivePin .cs l).chan = s.chan := rfl
@[simp] theorem drivePin_cs_nextMux (l : Level) (s : State) : (s.drivePin .cs l).nextMux = s.nextMux := rfl
@[simp] theorem drivePin_cs_curMux (l : Level) (s : State) : (s.drivePin .cs l).curMux = s.curMux := rfl
@[simp] theorem drivePin_cs_result (l : Level) (s : State) : (s.drivePin .cs l).result = s.result := rfl
@[simp] theorem drivePin_cs_wr (l : Level) (s : State) : (s.drivePin .cs l).wr = s.wr := rfl
@[simp] theorem drivePin_cs_newData (l : Level) (s : State) : (s.drivePin .cs l).newData = s.newData := rfl
@[simp] theorem drivePin_cs_oos (l : Level) (s : State) : (s.drivePin .cs l).oos = s.oos := rfl
@[simp] theorem drivePin_cs_csLvl (l : Level) (s : State) : (s.drivePin .cs l).csLvl = l := rfl
@[simp] theorem drivePin_cs_syncLvl (l : Level) (s : State) : (s.drivePin .cs l).syncLvl = s.syncLvl := rfl
@[simp] theorem drivePin_cs_rstLvl (l : Level) (s : State) : (s.drivePin .cs l).rstLvl = s.rstLvl := rfl
@[simp] theorem drivePin_cs_busOn (l : Level) (s : State) : (s.drivePin .cs l).busOn = s.busOn := rfl
@[simp] theorem drivePin_cs_busHeld (l : Level) (s : State) : (s.drivePin .cs l).busHeld = s.busHeld := rfl
@[simp] theorem drivePin_cs_refused (l : Level) (s : State) : (s.drivePin .cs l).refused = s.refused := rfl
@[simp] theorem drivePin_cs_faulted (l : Level) (s : State) : (s.drivePin .cs l).faulted = s.faulted := rfl
@[simp] theorem drivePin_cs_trace (l : Level) (s : State) : (s.drivePin .cs l).trace = s.trace ++ [.pin .cs l] := rfl
@[simp] theorem drivePin_cs_results (l : Level) (s : State) : (s.drivePin .cs l).results = s.results := rfl
@[simp] theorem drivePin_cs_commands (l : Level) (s : State) : (s.drivePin .cs l).commands = s.commands := rfl
@[simp] theorem drivePin_cs_env (l : Level) (s : State) : (s.drivePin .cs l).env = s.env := rfl

/-! ### `drivePin_rst` -/

@[simp] theorem drivePin_rst_params (l : Level) (s : State) : (s.drivePin .rst l).params = s.params := rfl
@[simp] theorem drivePin_rst_phase (l : Level) (s : State) : (s.drivePin .rst l).phase = s.phase := rfl
@[simp] theorem drivePin_rst_cfg (l : Level) (s : State) : (s.drivePin .rst l).cfg = s.cfg := rfl
@[simp] theorem drivePin_rst_chan (l : Level) (s : State) : (s.drivePin .rst l).chan = s.chan := rfl
@[simp] theorem drivePin_rst_nextMux (l : Level) (s : State) : (s.drivePin .rst l).nextMux = s.nextMux := rfl
@[simp] theorem drivePin_rst_curMux (l : Level) (s : State) : (s.drivePin .rst l).curMux = s.curMux := rfl
@[simp] theorem drivePin_rst_result (l : Level) (s : State) : (s.drivePin .rst l).result = s.result := rfl
@[simp] theorem drivePin_rst_wr (l : Level) (s : State) : (s.drivePin .rst l).wr = s.wr := rfl
@[simp] theorem drivePin_rst_newData (l : Level) (s : State) : (s.drivePin .rst l).newData = s.newData := rfl
@[simp] theorem drivePin_rst_oos (l : Level) (s : State) : (s.drivePin .rst l).oos = s.oos := rfl
@[simp] theorem drivePin_rst_csLvl (l : Level) (s : State) : (s.drivePin .rst l).csLvl = s.csLvl := rfl
@[simp] theorem drivePin_rst_syncLvl (l : Level) (s : State) : (s.drivePin .rst l).syncLvl = s.syncLvl := rfl
@[simp] theorem drivePin_rst_rstLvl (l : Level) (s : State) : (s.drivePin .rst l).rstLvl = l := rfl
@[simp] theorem drivePin_rst_busOn (l : Level) (s : State) : (s.drivePin .rst l).busOn = s.busOn := rfl
@[simp] theorem drivePin_rst_busHeld (l : Level) (s : State) : (s.drivePin .rst l).busHeld = s.busHeld := rfl
@[simp] theorem drivePin_rst_refused (l : Level) (s : State) : (s.drivePin .rst l).refused = s.refused := rfl
@[simp] theorem drivePin_rst_faulted (l : Level) (s : State) : (s.drivePin .rst l).faulted = s.faulted := rfl
@[simp] theorem drivePin_rst_trace (l : Level) (s : State) : (s.drivePin .rst l).trace = s.trace ++ [.pin .rst l] := rfl
@[simp] theorem drivePin_rst_results (l : Level) (s : State) : (s.drivePin .rst l).results = s.results := rfl
@[simp] theorem drivePin_rst_commands (l : Level) (s : State) : (s.drivePin .rst l).commands = s.commands := rfl
@[simp] theorem drivePin_rst_env (l : Level) (s : State) : (s.drivePin .rst l).env = s.env := rfl

/-! ### `drivePin_sclk` -/

@[simp] theorem drivePin_sclk_params (l : Level) (s : State) : (s.drivePin .sclk l).params = s.params := rfl
@[simp] theorem drivePin_sclk_phase (l : Level) (s : State) : (s.drivePin .sclk l).phase = s.phase := rfl
@[simp] theorem drivePin_sclk_cfg (l : Level) (s : State) : (s.drivePin .sclk l).cfg = s.cfg := rfl
@[simp] theorem drivePin_sclk_chan (l : Level) (s : State) : (s.drivePin .sclk l).chan = s.chan := rfl
@[simp] theorem drivePin_sclk_nextMux (l : Level) (s : State) : (s.drivePin .sclk l).nextMux = s.nextMux := rfl
@[simp] theorem drivePin_sclk_curMux (l : Level) (s : State) : (s.drivePin .sclk l).curMux = s.curMux := rfl
@[simp] theorem drivePin_sclk_result (l : Level) (s : State) : (s.drivePin .sclk l).result = s.result := rfl
@[simp] theorem drivePin_sclk_wr (l : Level) (s : State) : (s.drivePin .sclk l).wr = s.wr := rfl
@[simp] theorem drivePin_sclk_newData (l : Level) (s : State) : (s.drivePin .sclk l).newData = s.newData := rfl
@[simp] theorem drivePin_sclk_oos (l : Level) (s : State) : (s.drivePin .sclk l).oos = s.oos := rfl
@[simp] theorem drivePin_sclk_csLvl (l : Level) (s : State) : (s.drivePin .sclk l).csLvl = s.csLvl := rfl
@[simp] theorem drivePin_sclk_syncLvl (l : Level) (s : State) : (s.drivePin .sclk l).syncLvl = s.syncLvl := rfl
@[simp] theorem drivePin_sclk_rstLvl (l : Level) (s : State) : (s.drivePin .sclk l).rstLvl = l := rfl
@[simp] theorem drivePin_sclk_busOn (l : Level) (s : State) : (s.drivePin .sclk l).busOn = s.busOn := rfl
@[simp] theorem drivePin_sclk_busHeld (l : Level) (s : State) : (s.drivePin .sclk l).busHeld = s.busHeld := rfl
@[simp] theorem drivePin_sclk_refused (l : Level) (s : State) : (s.drivePin .sclk l).refused = s.refused := rfl
@[simp] theorem drivePin_sclk_faulted (l : Level) (s : State) : (s.drivePin .sclk l).faulted = s.faulted := rfl
@[simp] theorem drivePin_sclk_trace (l : Level) (s : State) : (s.drivePin .sclk l).trace = s.trace ++ [.pin .sclk l] := rfl
@[simp] theorem drivePin_sclk_results (l : Level) (s : State) : (s.drivePin .sclk l).results = s.results := rfl
@[simp] theorem drivePin_sclk_commands (l : Level) (s : State) : (s.drivePin .sclk l).commands = s.commands := rfl
@[simp] theorem drivePin_sclk_env (l : Level) (s : State) : (s.drivePin .sclk l).env = s.env := rfl

/-! ### `send` -/

@[simp] theorem send_params (b : Byte) (s : State) : (s.send b).params = s.params := rfl
@[simp] theorem send_phase (b : Byte) (s : State) : (s.send b).phase = s.phase := rfl
@[simp] theorem send_cfg (b : Byte) (s : State) : (s.send b).cfg = s.cfg := rfl
@[simp] theorem send_chan (b : Byte) (s : State) : (s.send b).chan = s.chan := rfl
@[simp] theorem send_nextMux (b : Byte) (s : State) : (s.send b).nextMux = s.nextMux := rfl
@[simp] theorem send_curMux (b : Byte) (s : State) : (s.send b).curMux = s.curMux := rfl
@[simp] theorem send_result (b : Byte) (s : State) : (s.send b).result = s.result := rfl
@[simp] theorem send_wr (b : Byte) (s : State) : (s.send b).wr = s.wr := rfl
@[simp] theorem send_newData (b : Byte) (s : State) : (s.send b).newData = s.newData := rfl
@[simp] theorem send_oos (b : Byte) (s : State) : (s.send b).oos = s.oos := rfl
@[simp] theorem send_csLvl (b : Byte) (s : State) : (s.send b).csLvl = s.csLvl := rfl
@[simp] theorem send_syncLvl (b : Byte) (s : State) : (s.send b).syncLvl = s.syncLvl := rfl
@[simp] theorem send_rstLvl (b : Byte) (s : State) : (s.send b).rstLvl = s.rstLvl := rfl
@[simp] theorem send_busOn (b : Byte) (s : State) : (s.send b).busOn = s.busOn := rfl
@[simp] theorem send_busHeld (b : Byte) (s : State) : (s.send b).busHeld = s.busHeld := rfl
@[simp] theorem send_refused (b : Byte) (s : State) : (s.send b).refused = s.refused := rfl
@[simp] theorem send_faulted (b : Byte) (s : State) : (s.send b).faulted = s.faulted := rfl
@[simp] theorem send_trace (b : Byte) (s : State) : (s.send b).trace = s.trace ++ [.tx b] := rfl
@[simp] theorem send_results (b : Byte) (s : State) : (s.send b).results = s.results := rfl
@[simp] theorem send_commands (b : Byte) (s : State) : (s.send b).commands = s.commands := rfl
@[simp] theorem send_env (b : Byte) (s : State) : (s.send b).env = s.env := rfl

/-! ### `delay` -/

@[simp] theorem delay_params (d : Delay) (s : State) : (s.delay d).params = s.params := rfl
@[simp] theorem delay_phase (d : Delay) (s : State) : (s.delay d).phase = s.phase := rfl
@[simp] theorem delay_cfg (d : Delay) (s : State) : (s.delay d).cfg = s.cfg := rfl
@[simp] theorem delay_chan (d : Delay) (s : State) : (s.delay d).chan = s.chan := rfl
@[simp] theorem delay_nextMux (d : Delay) (s : State) : (s.delay d).nextMux = s.nextMux := rfl
@[simp] theorem delay_curMux (d : Delay) (s : State) : (s.delay d).curMux = s.curMux := rfl
@[simp] theorem delay_result (d : Delay) (s : State) : (s.delay d).result = s.result := rfl
@[simp] theorem delay_wr (d : Delay) (s : State) : (s.delay d).wr = s.wr := rfl
@[simp] theorem delay_newData (d : Delay) (s : State) : (s.delay d).newData = s.newData := rfl
@[simp] theorem delay_oos (d : Delay) (s : State) : (s.delay d).oos = s.oos := rfl
@[simp] theorem delay_csLvl (d : Delay) (s : State) : (s.delay d).csLvl = s.csLvl := rfl
@[simp] theorem delay_syncLvl (d : Delay) (s : State) : (s.delay d).syncLvl = s.syncLvl := rfl
@[simp] theorem delay_rstLvl (d : Delay) (s : State) : (s.delay d).rstLvl = s.rstLvl := rfl
@[simp] theorem delay_busOn (d : Delay) (s : State) : (s.delay d).busOn = s.busOn := rfl
@[simp] theorem delay_busHeld (d : Delay) (s : State) : (s.delay d).busHeld = s.busHeld := rfl
@[simp] theorem delay_refused (d : Delay) (s : State) : (s.delay d).refused = s.refused := rfl
@[simp] theorem delay_faulted (d : Delay) (s : State) : (s.delay d).faulted = s.faulted := rfl
@[simp] theorem delay_trace (d : Delay) (s : State) : (s.delay d).trace = s.trace ++ [.delay d] := rfl
@[simp] theorem delay_results (d : Delay) (s : State) : (s.delay d).results = s.results := rfl
@[simp] theorem delay_commands (d : Delay) (s : State) : (s.delay d).commands = s.commands := rfl
@[simp] theorem delay_env (d : Delay) (s : State) : (s.delay d).env = s.env := rfl

/-! ### `setChan` -/

@[simp] theorem setChan_params (i : BitVec 8) (v : Byte) (s : State) : (s.setChan i v).params = s.params := rfl
@[simp] theorem setChan_phase (i : BitVec 8) (v : Byte) (s : State) : (s.setChan i v).phase = s.phase := rfl
@[simp] theorem setChan_cfg (i : BitVec 8) (v : Byte) (s : State) : (s.setChan i v).cfg = s.cfg := rfl
@[simp] theorem setChan_chan (i : BitVec 8) (v : Byte) (s : State) : (s.setChan i v).chan = s.chan.set i.toNat v := rfl
@[simp] theorem setChan_nextMux (i : BitVec 8) (v : Byte) (s : State) : (s.setChan i v).nextMux = s.nextMux := rfl
@[simp] theorem setChan_curMux (i : BitVec 8) (v : Byte) (s : State) : (s.setChan i v).curMux = s.curMux := rfl
@[simp] theorem setChan_result (i : BitVec 8) (v : Byte) (s : State) : (s.setChan i v).result = s.result := rfl
@[simp] theorem setChan_wr (i : BitVec 8) (v : Byte) (s : State) : (s.setChan i v).wr = s.wr := rfl
@[simp] theorem setChan_newData (i : BitVec 8) (v : Byte) (s : State) : (s.setChan i v).newData = s.newData := rfl
@[simp] theorem setChan_oos (i : BitVec 8) (v : Byte) (s : State) : (s.setChan i v).oos = s.oos := rfl
@[simp] theorem setChan_csLvl (i : BitVec 8) (v : Byte) (s : State) : (s.setChan i v).csLvl = s.csLvl := rfl
@[simp] theorem setChan_syncLvl (i : BitVec 8) (v : Byte) (s : State) : (s.setChan i v).syncLvl = s.syncLvl := rfl
@[simp] theorem setChan_rstLvl (i : BitVec 8) (v : Byte) (s : State) : (s.setChan i v).rstLvl = s.rstLvl := rfl
@[simp] theorem setChan_busOn (i : BitVec 8) (v : Byte) (s : State) : (s.setChan i v).busOn = s.busOn := rfl
@[simp] theorem setChan_busHeld (i : BitVec 8) (v : Byte) (s : State) : (s.setChan i v).busHeld = s.busHeld := rfl
@[simp] theorem setChan_refused (i : BitVec 8) (v : Byte) (s : State) : (s.setChan i v).refused = s.refused := rfl
@[simp] theorem setChan_faulted (i : BitVec 8) (v : Byte) (s : State) : (s.setChan i v).faulted = s.faulted := rfl
@[simp] theorem setChan_trace (i : BitVec 8) (v : Byte) (s : State) : (s.setChan i v).trace = s.trace := rfl
@[simp] theorem setChan_results (i : BitVec 8) (v : Byte) (s : State) : (s.setChan i v).results = s.results := rfl
@[simp] theorem setChan_commands (i : BitVec 8) (v : Byte) (s : State) : (s.setChan i v).commands = s.commands := rfl
@[simp] theorem setChan_env (i : BitVec 8) (v : Byte) (s : State) : (s.setChan i v).env = s.env := rfl

/-! ### `enter` -/

@[simp] theorem enter_params (p : Phase) (s : State) : (s.enter p).params = s.params := rfl
@[simp] theorem enter_phase (p : Phase) (s : State) : (s.enter p).phase = p := rfl
@[simp] theorem enter_cfg (p : Phase) (s : State) : (s.enter p).cfg = s.cfg := rfl
@[simp] theorem enter_chan (p : Phase) (s : State) : (s.enter p).chan = s.chan := rfl
@[simp] theorem enter_nextMux (p : Phase) (s : State) : (s.enter p).nextMux = s.nextMux := rfl
@[simp] theorem enter_curMux (p : Phase) (s : State) : (s.enter p).curMux = s.curMux := rfl
@[simp] theorem enter_result (p : Phase) (s : State) : (s.enter p).result = s.result := rfl
@[simp] theorem enter_wr (p : Phase) (s : State) : (s.enter p).wr = s.wr := rfl
@[simp] theorem enter_newData (p : Phase) (s : State) : (s.enter p).newData = s.newData := rfl
@[simp] theorem enter_oos (p : Phase) (s : State) : (s.enter p).oos = s.oos := rfl
@[simp] theorem enter_csLvl (p : Phase) (s : State) : (s.enter p).csLvl = s.csLvl := rfl
@[simp] theorem enter_syncLvl (p : Phase) (s : State) : (s.enter p).syncLvl = s.syncLvl := rfl
@[simp] theorem enter_rstLvl (p : Phase) (s : State) : (s.enter p).rstLvl = s.rstLvl := rfl
@[simp] theorem enter_busOn (p : Phase) (s : State) : (s.enter p).busOn = s.busOn := rfl
@[simp] theorem enter_busHeld (p : Phase) (s : State) : (s.enter p).busHeld = s.busHeld := rfl
@[simp] theorem enter_refused (p : Phase) (s : State) : (s.enter p).refused = s.refused := rfl
@[simp] theorem enter_faulted (p : Phase) (s : State) : (s.enter p).faulted = s.faulted := rfl
@[simp] theorem enter_trace (p : Phase) (s : State) : (s.enter p).trace = s.trace := rfl
@[simp] theorem enter_results (p : Phase) (s : State) : (s.enter p).results = s.results := rfl
@[simp] theorem enter_commands (p : Phase) (s : State) : (s.enter p).commands = s.commands := rfl
@[simp] theorem enter_env (p : Phase) (s : State) : (s.enter p).env = s.env := rfl

/-! ### `storeSample` -/

@[simp] theorem storeSample_params (i : BitVec 8) (v : BitVec 32) (s : State) : (s.storeSample i v).params = s.params := rfl
@[simp] theorem storeSample_phase (i : BitVec 8) (v : BitVec 32) (s : State) : (s.storeSample i v).phase = s.phase := rfl
@[simp] theorem storeSample_cfg (i : BitVec 8) (v : BitVec 32) (s : State) : (s.storeSample i v).cfg = s.cfg := rfl
@[simp] theorem storeSample_chan (i : BitVec 8) (v : BitVec 32) (s : State) : (s.storeSample i v).chan = s.chan := rfl
@[simp] theorem storeSample_nextMux (i : BitVec 8) (v : BitVec 32) (s : State) : (s.storeSample i v).nextMux = s.nextMux := rfl
@[simp] theorem storeSample_curMux (i : BitVec 8) (v : BitVec 32) (s : State) : (s.storeSample i v).curMux = s.curMux := rfl
@[simp] theorem storeSample_result (i : BitVec 8) (v : BitVec 32) (s : State) : (s.storeSample i v).result = s.result.set i.toNat v := rfl
@[simp] theorem storeSample_wr (i : BitVec 8) (v : BitVec 32) (s : State) : (s.storeSample i v).wr = s.wr.set i.toNat true := rfl
@[simp] theorem storeSample_newData (i : BitVec 8) (v : BitVec 32) (s : State) : (s.storeSample i v).newData = i := rfl
@[simp] theorem storeSample_oos (i : BitVec 8) (v : BitVec 32) (s : State) : (s.storeSample i v).oos = s.oos := rfl
@[simp] theorem storeSample_csLvl (i : BitVec 8) (v : BitVec 32) (s : State) : (s.storeSample i v).csLvl = s.csLvl := rfl
@[simp] theorem storeSample_syncLvl (i : BitVec 8) (v : BitVec 32) (s : State) : (s.storeSample i v).syncLvl = s.syncLvl := rfl
@[simp] theorem storeSample_rstLvl (i : BitVec 8) (v : BitVec 32) (s : State) : (s.storeSample i v).rstLvl = s.rstLvl := rfl
@[simp] theorem storeSample_busOn (i : BitVec 8) (v : BitVec 32) (s : State) : (s.storeSample i v).busOn = s.busOn := rfl
@[simp] theorem storeSample_busHeld (i : BitVec 8) (v : BitVec 32) (s : State) : (s.storeSample i v).busHeld = s.busHeld := rfl
@[simp] theorem storeSample_refused (i : BitVec 8) (v : BitVec 32) (s : State) : (s.storeSample i v).refused = s.refused := rfl
@[simp] theorem storeSample_faulted (i : BitVec 8) (v : BitVec 32) (s : State) : (s.storeSample i v).faulted = s.faulted := rfl
@[simp] theorem storeSample_trace (i : BitVec 8) (v : BitVec 32) (s : State) : (s.storeSample i v).trace = s.trace := rfl
@[simp] theorem storeSample_results (i : BitVec 8) (v : BitVec 32) (s : State) : (s.storeSample i v).results = s.results := rfl
@[simp] theorem storeSample_commands (i : BitVec 8) (v : BitVec 32) (s : State) : (s.storeSample i v).commands = s.commands := rfl
@[simp] theorem storeSample_env (i : BitVec 8) (v : BitVec 32) (s : State) : (s.storeSample i v).env = s.env := rfl

/-! ### `clearNewData` -/

@[simp] theorem clearNewData_params (s : State) : (s.clearNewData).params = s.params := rfl
@[simp] theorem clearNewData_phase (s : State) : (s.clearNewData).phase = s.phase := rfl
@[simp] theorem clearNewData_cfg (s : State) : (s.clearNewData).cfg = s.cfg := rfl
@[simp] theorem clearNewData_chan (s : State) : (s.clearNewData).chan = s.chan := rfl
@[simp] theorem clearNewData_nextMux (s : State) : (s.clearNewData).nextMux = s.nextMux := rfl
@[simp] theorem clearNewData_curMux (s : State) : (s.clearNewData).curMux = s.curMux := rfl
@[simp] theorem clearNewData_result (s : State) : (s.clearNewData).result = s.result := rfl
@[simp] theorem clearNewData_wr (s : State) : (s.clearNewData).wr = s.wr := rfl
@[simp] theorem clearNewData_newData (s : State) : (s.clearNewData).newData = Config.sentinel := rfl
@[simp] theorem clearNewData_oos (s : State) : (s.clearNewData).oos = s.oos := rfl
@[simp] theorem clearNewData_csLvl (s : State) : (s.clearNewData).csLvl = s.csLvl := rfl
@[simp] theorem clearNewData_syncLvl (s : State) : (s.clearNewData).syncLvl = s.syncLvl := rfl
@[simp] theorem clearNewData_rstLvl (s : State) : (s.clearNewData).rstLvl = s.rstLvl := rfl
@[simp] theorem clearNewData_busOn (s : State) : (s.clearNewData).busOn = s.busOn := rfl
@[simp] theorem clearNewData_busHeld (s : State) : (s.clearNewData).busHeld = s.busHeld := rfl
@[simp] theorem clearNewData_refused (s : State) : (s.clearNewData).refused = s.refused := rfl
@[simp] theorem clearNewData_faulted (s : State) : (s.clearNewData).faulted = s.faulted := rfl
@[simp] theorem clearNewData_trace (s : State) : (s.clearNewData).trace = s.trace := rfl
@[simp] theorem clearNewData_results (s : State) : (s.clearNewData).results = s.results := rfl
@[simp] theorem clearNewData_commands (s : State) : (s.clearNewData).commands = s.commands := rfl
@[simp] theorem clearNewData_env (s : State) : (s.clearNewData).env = s.env := rfl

/-! ### `refuse` -/

@[simp] theorem refuse_params (w : CommandWord) (s : State) : (s.refuse w).params = s.params := rfl
@[simp] theorem refuse_phase (w : CommandWord) (s : State) : (s.refuse w).phase = s.phase := rfl
@[simp] theorem refuse_cfg (w : CommandWord) (s : State) : (s.refuse w).cfg = s.cfg := rfl
@[simp] theorem refuse_chan (w : CommandWord) (s : State) : (s.refuse w).chan = s.chan := rfl
@[simp] theorem refuse_nextMux (w : CommandWord) (s : State) : (s.refuse w).nextMux = s.nextMux := rfl
@[simp] theorem refuse_curMux (w : CommandWord) (s : State) : (s.refuse w).curMux = s.curMux := rfl
@[simp] theorem refuse_result (w : CommandWord) (s : State) : (s.refuse w).result = s.result := rfl
@[simp] theorem refuse_wr (w : CommandWord) (s : State) : (s.refuse w).wr = s.wr := rfl
@[simp] theorem refuse_newData (w : CommandWord) (s : State) : (s.refuse w).newData = s.newData := rfl
@[simp] theorem refuse_oos (w : CommandWord) (s : State) : (s.refuse w).oos = s.oos := rfl
@[simp] theorem refuse_csLvl (w : CommandWord) (s : State) : (s.refuse w).csLvl = s.csLvl := rfl
@[simp] theorem refuse_syncLvl (w : CommandWord) (s : State) : (s.refuse w).syncLvl = s.syncLvl := rfl
@[simp] theorem refuse_rstLvl (w : CommandWord) (s : State) : (s.refuse w).rstLvl = s.rstLvl := rfl
@[simp] theorem refuse_busOn (w : CommandWord) (s : State) : (s.refuse w).busOn = s.busOn := rfl
@[simp] theorem refuse_busHeld (w : CommandWord) (s : State) : (s.refuse w).busHeld = s.busHeld := rfl
@[simp] theorem refuse_refused (w : CommandWord) (s : State) : (s.refuse w).refused = true := rfl
@[simp] theorem refuse_faulted (w : CommandWord) (s : State) : (s.refuse w).faulted = s.faulted := rfl
@[simp] theorem refuse_trace (w : CommandWord) (s : State) : (s.refuse w).trace = s.trace ++ [.op w] := rfl
@[simp] theorem refuse_results (w : CommandWord) (s : State) : (s.refuse w).results = s.results := rfl
@[simp] theorem refuse_commands (w : CommandWord) (s : State) : (s.refuse w).commands = s.commands := rfl
@[simp] theorem refuse_env (w : CommandWord) (s : State) : (s.refuse w).env = s.env := rfl

/-! ### `markFault` -/

@[simp] theorem markFault_params (w : CommandWord) (s : State) : (s.markFault w).params = s.params := rfl
@[simp] theorem markFault_phase (w : CommandWord) (s : State) : (s.markFault w).phase = s.phase := rfl
@[simp] theorem markFault_cfg (w : CommandWord) (s : State) : (s.markFault w).cfg = s.cfg := rfl
@[simp] theorem markFault_chan (w : CommandWord) (s : State) : (s.markFault w).chan = s.chan := rfl
@[simp] theorem markFault_nextMux (w : CommandWord) (s : State) : (s.markFault w).nextMux = s.nextMux := rfl
@[simp] theorem markFault_curMux (w : CommandWord) (s : State) : (s.markFault w).curMux = s.curMux := rfl
@[simp] theorem markFault_result (w : CommandWord) (s : State) : (s.markFault w).result = s.result := rfl
@[simp] theorem markFault_wr (w : CommandWord) (s : State) : (s.markFault w).wr = s.wr := rfl
@[simp] theorem markFault_newData (w : CommandWord) (s : State) : (s.markFault w).newData = s.newData := rfl
@[simp] theorem markFault_oos (w : CommandWord) (s : State) : (s.markFault w).oos = s.oos := rfl
@[simp] theorem markFault_csLvl (w : CommandWord) (s : State) : (s.markFault w).csLvl = s.csLvl := rfl
@[simp] theorem markFault_syncLvl (w : CommandWord) (s : State) : (s.markFault w).syncLvl = s.syncLvl := rfl
@[simp] theorem markFault_rstLvl (w : CommandWord) (s : State) : (s.markFault w).rstLvl = s.rstLvl := rfl
@[simp] theorem markFault_busOn (w : CommandWord) (s : State) : (s.markFault w).busOn = s.busOn := rfl
@[simp] theorem markFault_busHeld (w : CommandWord) (s : State) : (s.markFault w).busHeld = s.busHeld := rfl
@[simp] theorem markFault_refused (w : CommandWord) (s : State) : (s.markFault w).refused = s.refused := rfl
@[simp] theorem markFault_faulted (w : CommandWord) (s : State) : (s.markFault w).faulted = true := rfl
@[simp] theorem markFault_trace (w : CommandWord) (s : State) : (s.markFault w).trace = s.trace ++ [.op w] := rfl
@[simp] theorem markFault_results (w : CommandWord) (s : State) : (s.markFault w).results = s.results := rfl
@[simp] theorem markFault_commands (w : CommandWord) (s : State) : (s.markFault w).commands = s.commands := rfl
@[simp] theorem markFault_env (w : CommandWord) (s : State) : (s.markFault w).env = s.env := rfl

/-! ### `reply` -/

@[simp] theorem reply_params (c : Code) (d : BitVec 32) (s : State) : (s.reply c d).params = s.params := rfl
@[simp] theorem reply_phase (c : Code) (d : BitVec 32) (s : State) : (s.reply c d).phase = s.phase := rfl
@[simp] theorem reply_cfg (c : Code) (d : BitVec 32) (s : State) : (s.reply c d).cfg = s.cfg := rfl
@[simp] theorem reply_chan (c : Code) (d : BitVec 32) (s : State) : (s.reply c d).chan = s.chan := rfl
@[simp] theorem reply_nextMux (c : Code) (d : BitVec 32) (s : State) : (s.reply c d).nextMux = s.nextMux := rfl
@[simp] theorem reply_curMux (c : Code) (d : BitVec 32) (s : State) : (s.reply c d).curMux = s.curMux := rfl
@[simp] theorem reply_result (c : Code) (d : BitVec 32) (s : State) : (s.reply c d).result = s.result := rfl
@[simp] theorem reply_wr (c : Code) (d : BitVec 32) (s : State) : (s.reply c d).wr = s.wr := rfl
@[simp] theorem reply_newData (c : Code) (d : BitVec 32) (s : State) : (s.reply c d).newData = s.newData := rfl
@[simp] theorem reply_oos (c : Code) (d : BitVec 32) (s : State) : (s.reply c d).oos = s.oos := rfl
@[simp] theorem reply_csLvl (c : Code) (d : BitVec 32) (s : State) : (s.reply c d).csLvl = s.csLvl := rfl
@[simp] theorem reply_syncLvl (c : Code) (d : BitVec 32) (s : State) : (s.reply c d).syncLvl = s.syncLvl := rfl
@[simp] theorem reply_rstLvl (c : Code) (d : BitVec 32) (s : State) : (s.reply c d).rstLvl = s.rstLvl := rfl
@[simp] theorem reply_busOn (c : Code) (d : BitVec 32) (s : State) : (s.reply c d).busOn = s.busOn := rfl
@[simp] theorem reply_busHeld (c : Code) (d : BitVec 32) (s : State) : (s.reply c d).busHeld = s.busHeld := rfl
@[simp] theorem reply_refused (c : Code) (d : BitVec 32) (s : State) : (s.reply c d).refused = s.refused := rfl
@[simp] theorem reply_faulted (c : Code) (d : BitVec 32) (s : State) : (s.reply c d).faulted = s.faulted := rfl
@[simp] theorem reply_trace (c : Code) (d : BitVec 32) (s : State) : (s.reply c d).trace = s.trace ++ [.ret c d] := rfl
@[simp] theorem reply_results (c : Code) (d : BitVec 32) (s : State) : (s.reply c d).results = s.results ++ [resultWord c d] := rfl
@[simp] theorem reply_commands (c : Code) (d : BitVec 32) (s : State) : (s.reply c d).commands = s.commands := rfl
@[simp] theorem reply_env (c : Code) (d : BitVec 32) (s : State) : (s.reply c d).env = s.env := rfl

/-! ### `adopt` -/

@[simp] theorem adopt_params (b : Block) (s : State) : (s.adopt b).params = s.params := rfl
@[simp] theorem adopt_phase (b : Block) (s : State) : (s.adopt b).phase = s.phase := rfl
@[simp] theorem adopt_cfg (b : Block) (s : State) : (s.adopt b).cfg = b.settings := rfl
@[simp] theorem adopt_chan (b : Block) (s : State) : (s.adopt b).chan = s.chan.set 0 b.mux := rfl
@[simp] theorem adopt_nextMux (b : Block) (s : State) : (s.adopt b).nextMux = s.nextMux := rfl
@[simp] theorem adopt_curMux (b : Block) (s : State) : (s.adopt b).curMux = s.curMux := rfl
@[simp] theorem adopt_result (b : Block) (s : State) : (s.adopt b).result = s.result := rfl
@[simp] theorem adopt_wr (b : Block) (s : State) : (s.adopt b).wr = s.wr := rfl
@[simp] theorem adopt_newData (b : Block) (s : State) : (s.adopt b).newData = s.newData := rfl
@[simp] theorem adopt_oos (b : Block) (s : State) : (s.adopt b).oos = s.oos := rfl
@[simp] theorem adopt_csLvl (b : Block) (s : State) : (s.adopt b).csLvl = s.csLvl := rfl
@[simp] theorem adopt_syncLvl (b : Block) (s : State) : (s.adopt b).syncLvl = s.syncLvl := rfl
@[simp] theorem adopt_rstLvl (b : Block) (s : State) : (s.adopt b).rstLvl = s.rstLvl := rfl
@[simp] theorem adopt_busOn (b : Block) (s : State) : (s.adopt b).busOn = s.busOn := rfl
@[simp] theorem adopt_busHeld (b : Block) (s : State) : (s.adopt b).busHeld = s.busHeld := rfl
@[simp] theorem adopt_refused (b : Block) (s : State) : (s.adopt b).refused = s.refused := rfl
@[simp] theorem adopt_faulted (b : Block) (s : State) : (s.adopt b).faulted = s.faulted := rfl
@[simp] theorem adopt_trace (b : Block) (s : State) : (s.adopt b).trace = s.trace := rfl
@[simp] theorem adopt_results (b : Block) (s : State) : (s.adopt b).results = s.results := rfl
@[simp] theorem adopt_commands (b : Block) (s : State) : (s.adopt b).commands = s.commands := rfl
@[simp] theorem adopt_env (b : Block) (s : State) : (s.adopt b).env = s.env := rfl

end Sys2Proof.Machine
end

