-- ==== Sys2Proof/Laws/Ops.lean ====
section
/-! SUPPORT. What each shared operation does, said once as a record update of the state before it: the primitives, the bus
commands, the transactions, the pipelined step. -/

namespace Sys2Proof.Machine

/-! ## Bytes out -/

theorem sendAll_eq (bs : List Byte) (s : State) : s.sendAll bs = { s with trace := s.trace ++ bs.map Event.tx } := by
  induction bs generalizing s with
  | nil => simp [State.sendAll]
  | cons b bs ih => rw [State.sendAll, ih]; simp [State.send, State.log]

theorem openFrame_eq (s : State) :
    s.openFrame = { s with trace := s.trace ++ openEvents, busHeld := true, csLvl := .low } := by
  simp [State.openFrame, State.busAcquire, State.drivePin, State.log, openEvents]

theorem closeFrame_eq (s : State) :
    s.closeFrame = { s with trace := s.trace ++ closeEvents, busHeld := false, csLvl := .high } := by
  simp [State.closeFrame, State.busRelease, State.drivePin, State.delay, State.log, closeEvents]

theorem wreg_eq (r n : BitVec 4) (values : List Byte) (s : State) :
    s.wreg r n values = { s with trace := s.trace ++
      (.tx (regCommandByte Config.cmdWreg r) :: .tx (countByte n) :: values.map Event.tx) } := by
  simp [State.wreg, sendAll_eq, State.send, State.log]

theorem sync_eq (s : State) : s.sync = { s with trace := s.trace ++ [.tx 0xFC, .delay .t11Long] } := by
  simp [State.sync, State.send, State.delay, State.log, Config.cmdSync]

theorem wakeup_eq (s : State) : s.wakeup = { s with trace := s.trace ++ [.tx 0x00] } := rfl

/-! ## Draws -/

theorem drdy_eq (s : State) :
    s.drdy = (s.env.nextReady, { s with trace := s.trace ++ [.drdy s.env.nextReady], env := s.env.afterReady }) := rfl

theorem nowMs_eq (s : State) :
    s.nowMs = (s.env.now + drawn s.env.ticks (Config.freeTick s.env.count),
      { s with
        trace := s.trace ++ [.now (s.env.now + drawn s.env.ticks (Config.freeTick s.env.count))]
        env := { s.env with
          now := s.env.now + drawn s.env.ticks (Config.freeTick s.env.count)
          ticks := s.env.ticks.tail
          count := s.env.count + 1 } }) := by
  simp [State.nowMs, State.nowFrom, State.log]

theorem xfer_eq (b : Byte) (s : State) :
    s.xfer b = (s.env.byteAt 0, { s with trace := s.trace ++ [.xfer b (s.env.byteAt 0)], env := s.env.afterBytes 1 }) := by
  simp [State.xfer, State.log, Env.byteAt, Env.afterBytes, drawn]

@[simp] theorem afterBytes_zero (e : Env) : e.afterBytes 0 = e := by simp [Env.afterBytes]

@[simp] theorem afterBytes_afterBytes (e : Env) (j k : Nat) : (e.afterBytes j).afterBytes k = e.afterBytes (j + k) := by
  simp [Env.afterBytes, Nat.add_assoc]

@[simp] theorem byteAt_afterBytes (e : Env) (j k : Nat) : (e.afterBytes j).byteAt k = e.byteAt (j + k) := by
  simp [Env.afterBytes, Env.byteAt, Nat.add_assoc]

@[simp] theorem afterBytes_fair (e : Env) (k : Nat) : (e.afterBytes k).fair = e.fair := rfl

@[simp] theorem afterBytes_now (e : Env) (k : Nat) : (e.afterBytes k).now = e.now := rfl

@[simp] theorem afterReady_fair (e : Env) : e.afterReady.fair = e.fair := rfl

@[simp] theorem afterReady_now (e : Env) : e.afterReady.now = e.now := rfl

theorem xferMany_eq (k : Nat) (s : State) :
    s.xferMany k = ((List.range k).map s.env.byteAt,
      { s with
        trace := s.trace ++ (List.range k).map (fun j => Event.xfer s.params.dontCare (s.env.byteAt j))
        env := s.env.afterBytes k }) := by
  induction k generalizing s with
  | zero => simp [State.xferMany]
  | succ k ih =>
    simp only [State.xferMany, xfer_eq, ih, List.range_succ_eq_map, List.map_cons, List.map_map]
    simp [Function.comp_def, Nat.add_comm]

/-! ## Bus commands and transactions -/

theorem rdata_eq (s : State) :
    s.rdata = (s.env.nextSample,
      { s with trace := s.trace ++ readEvents s.params.dontCare s.env, env := s.env.afterBytes 3 }) := by
  simp [State.rdata, xfer_eq, State.send, State.delay, State.log, Env.nextSample, readEvents, Config.cmdRdata]

theorem rreg_eq (r n : BitVec 4) (s : State) :
    s.rreg r n = ((List.range (n.toNat + 1)).map s.env.byteAt,
      { s with
        trace := s.trace ++ (.tx (regCommandByte Config.cmdRreg r) :: .tx (countByte n) :: .delay .t6 ::
          (List.range (n.toNat + 1)).map (fun j => Event.xfer s.params.dontCare (s.env.byteAt j)))
        env := s.env.afterBytes (n.toNat + 1) }) := by
  simp [State.rreg, xferMany_eq, State.send, State.delay, State.log]

theorem writeBlock_eq (b : Block) (s : State) :
    s.writeRegs Config.regStatus 3 b.bytes =
      { s with trace := s.trace ++ writeBlockEvents b, busHeld := false, csLvl := .high } := by
  simp only [State.writeRegs, openFrame_eq, wreg_eq, closeFrame_eq]
  simp [writeBlockEvents, Block.bytes, regCommandByte, countByte, Config.cmdWreg, Config.regStatus]

theorem readBlock_eq (s : State) :
    (blockOf (s.readRegs Config.regStatus 3).1, (s.readRegs Config.regStatus 3).2) =
      (s.env.nextBlock,
        { s with
          trace := s.trace ++ readBlockEvents s.params.dontCare s.env
          busHeld := false
          csLvl := .high
          env := s.env.afterBytes 4 }) := by
  simp only [State.readRegs, openFrame_eq, rreg_eq, closeFrame_eq]
  simp [readBlockEvents, Env.nextBlock, blockOf, regCommandByte, countByte, Config.cmdRreg, Config.regStatus, List.range_succ]

theorem startNext_eq (s : State) :
    s.startNext = { s with
      trace := s.trace ++ startEvents (s.chanAt s.nextMux)
      curMux := s.nextMux
      nextMux := s.nextIndex s.nextMux } := by
  simp only [State.startNext, wreg_eq, sync_eq, wakeup_eq, State.delay, State.log]
  simp [startEvents, regCommandByte, countByte, Config.cmdWreg, Config.regMux]

theorem readSample_eq (i : BitVec 8) (s : State) :
    s.readSample i = { s with
      trace := s.trace ++ readEvents s.params.dontCare s.env
      env := s.env.afterBytes 3
      result := s.result.set i.toNat s.env.nextSample
      wr := s.wr.set i.toNat true
      newData := i } := by
  simp [State.readSample, rdata_eq, State.storeSample]

/-- The pipelined step in `Capturing` with nothing in flight: it starts a channel and reads nothing. -/
theorem pipelinedStep_first (s : State) (h : s.phase = .capturing) (hc : s.curMux = Config.sentinel) :
    s.pipelinedStep = { s with
      trace := s.trace ++ (openEvents ++ startEvents (s.chanAt s.nextMux) ++ closeEvents)
      curMux := s.nextMux
      nextMux := s.nextIndex s.nextMux
      busHeld := false
      csLvl := .high } := by
  simp only [State.pipelinedStep, openFrame_eq, startNext_eq, closeFrame_eq, State.readInFlight]
  simp [h, hc, State.chanAt, State.nextIndex]

/-- The pipelined step in `Capturing` with a channel in flight: it starts the next channel, then reads that one. -/
theorem pipelinedStep_next (s : State) (h : s.phase = .capturing) (hc : s.curMux ≠ Config.sentinel) :
    s.pipelinedStep = { s with
      trace := s.trace ++ (openEvents ++ startEvents (s.chanAt s.nextMux) ++ readEvents s.params.dontCare s.env ++ closeEvents)
      curMux := s.nextMux
      nextMux := s.nextIndex s.nextMux
      result := s.result.set s.curMux.toNat s.env.nextSample
      wr := s.wr.set s.curMux.toNat true
      newData := s.curMux
      env := s.env.afterBytes 3
      busHeld := false
      csLvl := .high } := by
  simp only [State.pipelinedStep, openFrame_eq, startNext_eq, closeFrame_eq, State.readInFlight]
  simp [h, hc, readSample_eq, State.chanAt, State.nextIndex]

/-- The drain step: it starts nothing and reads the channel in flight. -/
theorem pipelinedStep_drain (s : State) (h : s.phase ≠ .capturing) (hc : s.curMux ≠ Config.sentinel) :
    s.pipelinedStep = { s with
      trace := s.trace ++ (openEvents ++ readEvents s.params.dontCare s.env ++ closeEvents)
      phase := .idle
      curMux := Config.sentinel
      result := s.result.set s.curMux.toNat s.env.nextSample
      wr := s.wr.set s.curMux.toNat true
      newData := s.curMux
      env := s.env.afterBytes 3
      busHeld := false
      csLvl := .high } := by
  simp only [State.pipelinedStep, openFrame_eq, closeFrame_eq, State.readInFlight]
  simp [h, hc, readSample_eq, State.drain]

/-- The drain step with nothing in flight (R233 "cannot happen"): an empty frame. -/
theorem pipelinedStep_drain_empty (s : State) (h : s.phase ≠ .capturing) (hc : s.curMux = Config.sentinel) :
    s.pipelinedStep = { s with
      trace := s.trace ++ (openEvents ++ closeEvents)
      phase := .idle
      curMux := Config.sentinel
      busHeld := false
      csLvl := .high } := by
  simp only [State.pipelinedStep, openFrame_eq, closeFrame_eq, State.readInFlight]
  simp [h, hc, State.drain]

/-! ## The reset pulses (R171, R172) -/

theorem controlPinReset_eq (s : State) :
    s.controlPinReset = { s with trace := s.trace ++ controlPulseEvents, rstLvl := .high } := by
  simp [State.controlPinReset, State.drivePin, State.delay, State.log, controlPulseEvents]

theorem clockPinReset_eq (s : State) :
    s.clockPinReset =
      { s with trace := s.trace ++ clockPulseEvents, rstLvl := .high, csLvl := .high, busOn := false } := by
  simp [State.clockPinReset, State.hold, State.busEnd, State.drivePin, State.delay, State.log, clockPulseEvents]

theorem rearm_eq (s : State) :
    s.rearm = { s with trace := s.trace ++ [.busBegin], busOn := true, curMux := Config.sentinel, phase := .resetting } := by
  simp [State.rearm, State.busBegin, State.log]

end Sys2Proof.Machine
end

