-- ==== Sys2Proof/Laws/Wait.lean ====
section
/-! SUPPORT. What a wait, a sample and an `UPDATE` can do, said once: a wait changes the trace and the environment only, and appends
ready-line and clock samples only. -/

namespace Sys2Proof.Machine

/-- `t` differs from `s` in its trace and its environment at most, and the environment keeps its fairness. -/
def SameButInputs (s t : State) : Prop := t = { s with trace := t.trace, env := t.env } ∧ t.env.fair = s.env.fair

theorem SameButInputs.refl (s : State) : SameButInputs s s := ⟨rfl, rfl⟩

theorem SameButInputs.trans {s t u : State} (h : SameButInputs s t) (k : SameButInputs t u) : SameButInputs s u := by
  obtain ⟨h1, h2⟩ := h
  obtain ⟨k1, k2⟩ := k
  refine ⟨?_, k2.trans h2⟩
  rw [h1] at k1
  exact k1

theorem log_sameButInputs (e : Event) (s : State) : SameButInputs s (s.log e) := ⟨rfl, rfl⟩

theorem drdy_sameButInputs (s : State) : SameButInputs s s.drdy.2 := ⟨rfl, rfl⟩

theorem nowFrom_sameButInputs (floor : Nat) (s : State) : SameButInputs s (s.nowFrom floor).2 := ⟨rfl, rfl⟩

theorem chooseSample_sameButInputs (s : State) : SameButInputs s s.chooseSample.2 := ⟨rfl, rfl⟩

theorem waitOut_sameButInputs (t0 timeout : Nat) (s : State) : SameButInputs s (waitOut t0 timeout s).st := ⟨rfl, rfl⟩

/-- One round of a wait, as equations: the loop's only four ways to go on. -/
theorem waitLoop_succ (t0 timeout fuel : Nat) (s : State) :
    waitLoop t0 timeout (fuel + 1) s =
      match s.chooseSample.1 with
      | .readyLine =>
        match s.chooseSample.2.drdy.1 with
        | .low => ⟨true, s.chooseSample.2.drdy.2, false⟩
        | .high => waitLoop t0 timeout fuel s.chooseSample.2.drdy.2
      | .clock =>
        if expired s.params.waitCmp (s.chooseSample.2.nowMs.1 - t0) timeout then ⟨false, s.chooseSample.2.nowMs.2, false⟩
        else waitLoop t0 timeout fuel s.chooseSample.2.nowMs.2 := rfl

/-- One clock sample of the end of a wait. -/
theorem waitClock_succ (t0 timeout pending : Nat) (s : State) :
    waitClock t0 timeout (pending + 1) s =
      if expired s.params.waitCmp (s.nowMs.1 - t0) timeout then ⟨false, s.nowMs.2, false⟩
      else waitClock t0 timeout pending s.nowMs.2 := rfl

theorem waitClock_sameButInputs (t0 timeout pending : Nat) (s : State) : SameButInputs s (waitClock t0 timeout pending s).st := by
  induction pending generalizing s with
  | zero => exact waitOut_sameButInputs t0 timeout s
  | succ pending ih =>
    rw [waitClock_succ]
    have hn := nowFrom_sameButInputs 0 s
    split
    · exact hn
    · exact hn.trans (ih _)

/-- The clock alone never ends a wait by `READY`. -/
@[simp] theorem waitClock_ready (t0 timeout pending : Nat) (s : State) : (waitClock t0 timeout pending s).ready = false := by
  induction pending generalizing s with
  | zero => rfl
  | succ pending ih => rw [waitClock_succ]; split <;> simp [ih]

/-- One round of a polling loop of `BLOCKING_INIT` (R260). -/
theorem pollLoop_succ (t0 timeout fuel : Nat) (s : State) :
    pollLoop t0 timeout (fuel + 1) s =
      if s.update.phase = .idle then ⟨true, s.update, false⟩
      else if expired s.update.params.waitCmp (s.update.nowMs.1 - t0) timeout then ⟨false, s.update.nowMs.2, false⟩
      else pollLoop t0 timeout fuel s.update.nowMs.2 := rfl

theorem waitLoop_sameButInputs (t0 timeout fuel : Nat) (s : State) : SameButInputs s (waitLoop t0 timeout fuel s).st := by
  induction fuel generalizing s with
  | zero => exact waitClock_sameButInputs t0 timeout _ s
  | succ fuel ih =>
    rw [waitLoop_succ]
    have hc := chooseSample_sameButInputs s
    split
    · have hd := hc.trans (drdy_sameButInputs s.chooseSample.2)
      split
      · exact hd
      · exact hd.trans (ih _)
    · have hn := hc.trans (nowFrom_sameButInputs 0 s.chooseSample.2)
      split
      · exact hn
      · exact hn.trans (ih _)

theorem readyWait_sameButInputs (timeout : Nat) (s : State) : SameButInputs s (readyWait timeout s).st :=
  (nowFrom_sameButInputs 0 s).trans (waitLoop_sameButInputs _ _ _ _)

/-- A reading has expired exactly from the deadline on (R143, R145). -/
theorem expired_iff_deadline (cmp : WaitCmp) (t0 timeout t : Nat) (h : t0 ≤ t) :
    expired cmp (t - t0) timeout = true ↔ deadline cmp t0 timeout ≤ t := by
  cases cmp <;> simp [expired, deadline] <;> omega

/-- The last reading of a wait has passed the deadline (R145). -/
theorem expired_of_deadline (cmp : WaitCmp) (t0 timeout t : Nat) (h : deadline cmp t0 timeout ≤ t) :
    expired cmp (t - t0) timeout = true :=
  (expired_iff_deadline cmp t0 timeout t (by cases cmp <;> simp [deadline] at h <;> omega)).2 h

/-- The three cases of `UPDATE` (R240). -/
theorem update_sampling (s : State) (h : s.phase = .resetting ∨ s.phase = .writingSettings) :
    s.update = { s with
      trace := s.trace ++ [.drdy s.env.nextReady]
      env := s.env.afterReady
      phase := if s.env.nextReady = .low then .idle else s.phase } := by
  rcases h with h | h <;> simp only [State.update, h, drdy_eq] <;> cases hr : s.env.nextReady <;> simp [State.enter]

theorem update_stepping (s : State) (h : s.phase = .capturing ∨ s.phase = .finishingCapture) :
    s.update =
      if s.env.nextReady = .low then
        ({ s with trace := s.trace ++ [.drdy .low], env := s.env.afterReady } : State).pipelinedStep
      else { s with trace := s.trace ++ [.drdy .high], env := s.env.afterReady } := by
  rcases h with h | h <;> simp only [State.update, h, drdy_eq] <;> cases hr : s.env.nextReady <;> simp

theorem update_noop (s : State) (h : s.phase = .uninitialized ∨ s.phase = .idle) : s.update = s := by
  rcases h with h | h <;> simp [State.update, h]

/-- A wait that ends by `READY` never ends by fairness. -/
theorem waitLoop_ready_notByFairness (t0 timeout fuel : Nat) (s : State) (h : (waitLoop t0 timeout fuel s).ready = true) :
    (waitLoop t0 timeout fuel s).byFairness = false := by
  induction fuel generalizing s with
  | zero => simp [waitLoop] at h
  | succ fuel ih =>
    rw [waitLoop_succ] at *
    split at h
    · split at h <;> simp_all
    · split at h <;> simp_all

theorem readyWait_ready_notByFairness (timeout : Nat) (s : State) (h : (readyWait timeout s).ready = true) :
    (readyWait timeout s).byFairness = false := waitLoop_ready_notByFairness _ _ _ _ h

/-- The two ends of an operation that waits (R143, R144). -/
theorem waitThen_ready (timeout : Nat) (c : Code) (act : State → Reply) (s : State) (h : (readyWait timeout s).ready = true) :
    waitThen timeout c act s = act (readyWait timeout s).st := by simp [waitThen, h]

theorem waitThen_timeout (timeout : Nat) (c : Code) (act : State → Reply) (s : State) (h : (readyWait timeout s).ready = false) :
    waitThen timeout c act s = ⟨c, 0, (readyWait timeout s).st, (readyWait timeout s).byFairness⟩ := by simp [waitThen, h]

/-- The frame of an operation (R146): in a fair environment it always answers, and so does a body without a wait. -/
theorem hostOp_next (w : CommandWord) (body : State → Reply) (s : State)
    (h : s.env.fair = true ∨ (body (s.log (.op w))).byFairness = false) :
    hostOp w body s =
      .next ((body (s.log (.op w))).st.reply (body (s.log (.op w))).code (body (s.log (.op w))).data) := by
  rcases h with h | h <;> simp [hostOp, h]

/-- An operation answers a next state or is stuck in an unfair wait; it never refuses. -/
theorem hostOp_cases (w : CommandWord) (body : State → Reply) (s : State) :
    hostOp w body s =
        .next ((body (s.log (.op w))).st.reply (body (s.log (.op w))).code (body (s.log (.op w))).data) ∨
      (hostOp w body s = .fault .waitNeverEnds ∧ s.env.fair = false ∧ (body (s.log (.op w))).byFairness = true) := by
  unfold hostOp
  cases hf : s.env.fair <;> cases hb : (body (s.log (.op w))).byFairness <;> simp [hb]

theorem hostOp_congr (w : CommandWord) (body body' : State → Reply) (s : State)
    (h : body (s.log (.op w)) = body' (s.log (.op w))) : hostOp w body s = hostOp w body' s := by simp only [hostOp, h]

/-- An operation whose body is a wait that ends by `READY`: it goes on with its action (R143, R146). -/
theorem hostOp_wait_ready (w : CommandWord) (timeout : BitVec 32) (c : Code) (act : State → Reply) (s : State)
    (h : (waitOf w timeout s).ready = true) (ha : ∀ t, (act t).byFairness = false) :
    hostOp w (waitThen timeout.toNat c act) s =
      .next ((act (waitOf w timeout s).st).st.reply (act (waitOf w timeout s).st).code (act (waitOf w timeout s).st).data) := by
  have hb := waitThen_ready timeout.toNat c act (s.log (.op w)) h
  rw [hostOp_next _ _ _ (by rw [hb]; exact Or.inr (ha _)), hb]
  rfl

/-- An operation whose body is a wait that ends by `TIMEOUT` (R144), and the wait that never ends (R145). -/
theorem hostOp_wait_timeout (w : CommandWord) (timeout : BitVec 32) (c : Code) (act : State → Reply) (s : State)
    (h : (waitOf w timeout s).ready = false) :
    hostOp w (waitThen timeout.toNat c act) s =
      if s.env.fair = true ∨ (waitOf w timeout s).byFairness = false then .next ((waitOf w timeout s).st.reply c 0)
      else .fault .waitNeverEnds := by
  have hb := waitThen_timeout timeout.toNat c act (s.log (.op w)) h
  simp only [hostOp, hb, waitOf, Bool.or_eq_true, Bool.not_eq_true']
  congr

theorem waitOf_sameButInputs (w : CommandWord) (timeout : BitVec 32) (s : State) : SameButInputs s (waitOf w timeout s).st :=
  (log_sameButInputs _ s).trans (readyWait_sameButInputs _ _)

/-- What a settings read does once the line is ready (R215). -/
theorem readAndSettle_eq (u : BitVec 1) (s : State) :
    readAndSettle u s =
      if u = 1 then replyCode .ok (({ s with
          trace := s.trace ++ readBlockEvents s.params.dontCare s.env
          busHeld := false
          csLvl := .high
          env := s.env.afterBytes 4 } : State).adopt s.env.nextBlock)
      else replyCode (if s.env.nextBlock.masked = s.settingsBlock.masked then .ok else .outOfSyncSettings) { s with
          trace := s.trace ++ readBlockEvents s.params.dontCare s.env
          busHeld := false
          csLvl := .high
          env := s.env.afterBytes 4 } := by
  have h := readBlock_eq s
  simp only [Prod.mk.injEq] at h
  simp only [readAndSettle, h.1, h.2]
  by_cases hu : u = 1
  · rw [if_pos hu, if_pos hu]
  · rw [if_neg hu, if_neg hu]
    change (if s.env.nextBlock.masked = s.settingsBlock.masked then _ else _) = _
    by_cases hm : s.env.nextBlock.masked = s.settingsBlock.masked
    · rw [if_pos hm, if_pos hm]
    · rw [if_neg hm, if_neg hm]

theorem readAndSettle_notByFairness (u : BitVec 1) (s : State) : (readAndSettle u s).byFairness = false := by
  rw [readAndSettle_eq]
  split <;> rfl

end Sys2Proof.Machine
end

