-- ==== Sys2Proof/Laws/Runs.lean ====
section
/-! SUPPORT. What the body of any operation can do to the trace and the inputs, said once per shared operation: it appends events that are
no `OP` and no `RET`, keeps the construction constants and the two ports, reads a clock that never decreases, opens and closes its own
brackets, and sends whole groups of bytes. -/

namespace Sys2Proof.Machine

/-- An event that marks no operation. -/
def Event.inner : Event → Bool
  | .op _ | .ret _ _ => false
  | .acq | .rel | .busBegin | .busEnd | .pin _ _ | .tx _ | .xfer _ _ | .delay _ | .drdy _ | .now _ => true

/-- From `s` to `t` by `events`, sending `groups`. -/
structure Runs (s t : State) (events : List Event) (groups : List (List Byte)) : Prop where
  trace    : t.trace = s.trace ++ events
  inner    : ∀ e ∈ events, e.inner = true
  results  : t.results = s.results
  commands : t.commands = s.commands
  params   : t.params = s.params
  sync     : t.syncLvl = s.syncLvl
  fair     : t.env.fair = s.env.fair
  clock    : List.IsChain (· ≤ ·) (s.env.now :: clockReadings events)
  now      : t.env.now = (clockReadings events).getLastD s.env.now
  frames   : frameScan events false .high = some (false, .high)
  sent     : sentBytes events = groups.flatten
  grouped  : ∀ g ∈ groups, SentGroup g
  clocked  : ∀ b r, .xfer b r ∈ events → b = s.params.dontCare
  marks    : t.refused = s.refused ∧ t.faulted = s.faulted

/-! ## Reading appended traces -/

@[simp] theorem sentBytes_append (xs ys : List Event) : sentBytes (xs ++ ys) = sentBytes xs ++ sentBytes ys := by
  induction xs with
  | nil => rfl
  | cons e xs ih => cases e <;> simp [sentBytes, ih]

@[simp] theorem clockReadings_append (xs ys : List Event) : clockReadings (xs ++ ys) = clockReadings xs ++ clockReadings ys := by
  induction xs with
  | nil => rfl
  | cons e xs ih => cases e <;> simp [clockReadings, ih]

@[simp] theorem returnedWords_append (xs ys : List Event) : returnedWords (xs ++ ys) = returnedWords xs ++ returnedWords ys := by
  induction xs with
  | nil => rfl
  | cons e xs ih => cases e <;> simp [returnedWords, ih]

theorem returnedWords_inner {xs : List Event} (h : ∀ e ∈ xs, e.inner = true) : returnedWords xs = [] := by
  induction xs with
  | nil => rfl
  | cons e xs ih =>
    have he := h e (by simp)
    have hx := ih (fun x hx => h x (by simp [hx]))
    cases e <;> simp [Event.inner, returnedWords] at * <;> exact hx

theorem frameScan_append (xs ys : List Event) (held : Bool) (cs : Level) :
    frameScan (xs ++ ys) held cs =
      match frameScan xs held cs with
      | some (h, c) => frameScan ys h c
      | none => none := by
  induction xs generalizing held cs with
  | nil => rfl
  | cons e xs ih =>
    simp only [List.cons_append, frameScan]
    cases frameStep held cs e with
    | none => rfl
    | some p => exact ih _ _

/-! ## Composition -/

theorem Runs.refl (s : State) : Runs s s [] [] := by
  constructor <;> simp [clockReadings, frameScan, sentBytes]

theorem Runs.trans {s t u : State} {xs ys : List Event} {gs hs : List (List Byte)} (h : Runs s t xs gs) (k : Runs t u ys hs) :
    Runs s u (xs ++ ys) (gs ++ hs) where
  trace := by rw [k.trace, h.trace, List.append_assoc]
  inner := by
    intro e he
    rcases List.mem_append.1 he with he | he
    · exact h.inner e he
    · exact k.inner e he
  results := k.results.trans h.results
  commands := k.commands.trans h.commands
  params := k.params.trans h.params
  sync := k.sync.trans h.sync
  fair := k.fair.trans h.fair
  clock := by
    have hc := h.clock
    have kc := k.clock
    rw [h.now] at kc
    rw [clockReadings_append]
    generalize clockReadings xs = a at *
    generalize clockReadings ys = b at *
    generalize s.env.now = n at *
    clear h k
    induction a generalizing n with
    | nil => simpa using kc
    | cons x a ih =>
      rw [List.isChain_cons_cons] at hc
      rw [List.cons_append, List.isChain_cons_cons]
      exact ⟨hc.1, ih x hc.2 (by rwa [List.getLastD_cons] at kc)⟩
  now := by
    rw [k.now, h.now, clockReadings_append]
    generalize clockReadings xs = a
    cases hb : clockReadings ys with
    | nil => simp
    | cons y b => simp [List.getLastD_eq_getLast?]
  frames := by rw [frameScan_append, h.frames]; exact k.frames
  sent := by rw [sentBytes_append, h.sent, k.sent, List.flatten_append]
  grouped := by
    intro g hg
    rcases List.mem_append.1 hg with hg | hg
    · exact h.grouped g hg
    · exact k.grouped g hg
  clocked := by
    intro b r he
    rcases List.mem_append.1 he with he | he
    · exact h.clocked b r he
    · rw [k.clocked b r he, h.params]
  marks := ⟨k.marks.1.trans h.marks.1, k.marks.2.trans h.marks.2⟩

/-- A change of other fields runs nothing. -/
theorem Runs.still {s t : State} (h : t.trace = s.trace ∧ t.results = s.results ∧ t.commands = s.commands ∧ t.params = s.params ∧
    t.syncLvl = s.syncLvl ∧ t.env.fair = s.env.fair ∧ t.env.now = s.env.now ∧ t.refused = s.refused ∧ t.faulted = s.faulted) :
    Runs s t [] [] := by
  obtain ⟨h1, h2, h3, h4, h5, h6, h7, h8, h9⟩ := h
  constructor <;> simp [clockReadings, frameScan, sentBytes, *]

theorem enter_runs (p : Phase) (s : State) : Runs s (s.enter p) [] [] := Runs.still (by simp)

theorem adopt_runs (b : Block) (s : State) : Runs s (s.adopt b) [] [] := Runs.still (by simp)

/-! ## Draws and waits -/

theorem drdy_runs (s : State) : Runs s s.drdy.2 [.drdy s.drdy.1] [] := by
  constructor <;> simp [State.drdy, clockReadings, frameScan, frameStep, sentBytes, Event.inner]

theorem nowFrom_runs (floor : Nat) (s : State) : Runs s (s.nowFrom floor).2 [.now (s.nowFrom floor).1] [] := by
  constructor <;> simp [State.nowFrom, clockReadings, frameScan, frameStep, sentBytes, Event.inner]
  omega

theorem chooseSample_runs (s : State) : Runs s s.chooseSample.2 [] [] := Runs.still ⟨rfl, rfl, rfl, rfl, rfl, rfl, rfl, rfl, rfl⟩

/-- Only ready-line and clock samples. -/
def Event.sample : Event → Bool
  | .drdy _ | .now _ => true
  | .op _ | .ret _ _ | .acq | .rel | .busBegin | .busEnd | .pin _ _ | .tx _ | .xfer _ _ | .delay _ => false

theorem waitClock_runs (t0 timeout pending : Nat) (s : State) :
    ∃ es, Runs s (waitClock t0 timeout pending s).st es [] ∧ ∀ e ∈ es, e.sample = true := by
  induction pending generalizing s with
  | zero => exact ⟨_, nowFrom_runs _ s, by simp [Event.sample]⟩
  | succ pending ih =>
    rw [waitClock_succ]
    split
    · exact ⟨_, nowFrom_runs 0 s, by simp [Event.sample]⟩
    · obtain ⟨es, h, he⟩ := ih s.nowMs.2
      exact ⟨_, (nowFrom_runs 0 s).trans h, by simpa [Event.sample] using he⟩

theorem waitLoop_runs (t0 timeout fuel : Nat) (s : State) :
    ∃ es, Runs s (waitLoop t0 timeout fuel s).st es [] ∧ ∀ e ∈ es, e.sample = true := by
  induction fuel generalizing s with
  | zero => exact waitClock_runs _ _ _ s
  | succ fuel ih =>
    rw [waitLoop_succ]
    split
    · have hd := (chooseSample_runs s).trans (drdy_runs s.chooseSample.2)
      split
      · exact ⟨_, hd, by simp [Event.sample]⟩
      · obtain ⟨es, h, he⟩ := ih s.chooseSample.2.drdy.2
        exact ⟨_, hd.trans h, by simpa [Event.sample] using he⟩
    · have hn := (chooseSample_runs s).trans (nowFrom_runs 0 s.chooseSample.2)
      split
      · exact ⟨_, hn, by simp [Event.sample]⟩
      · obtain ⟨es, h, he⟩ := ih s.chooseSample.2.nowMs.2
        exact ⟨_, hn.trans h, by simpa [Event.sample] using he⟩

theorem readyWait_runs (timeout : Nat) (s : State) :
    ∃ es, Runs s (readyWait timeout s).st es [] ∧ ∀ e ∈ es, e.sample = true := by
  obtain ⟨es, h, he⟩ := waitLoop_runs s.nowMs.1 timeout
    (Config.freeLength s.nowMs.2.env.count + s.nowMs.2.env.order.length) s.nowMs.2
  exact ⟨_, (nowFrom_runs 0 s).trans h, by simpa [Event.sample] using he⟩

/-! ## Transactions and pulses -/

theorem writeBlock_runs (b : Block) (s : State) :
    Runs s (s.writeRegs Config.regStatus 3 b.bytes) (writeBlockEvents b) [[0x50, 0x03, b.status, b.mux, b.adcon, b.drate]] := by
  rw [writeBlock_eq]
  constructor <;> simp [writeBlockEvents, openEvents, closeEvents, clockReadings, frameScan, frameStep, sentBytes, Event.inner]
  exact SentGroup.writeSettings _ _ _ _

theorem readBlock_runs (s : State) :
    Runs s (s.readRegs Config.regStatus 3).2 (readBlockEvents s.params.dontCare s.env) [[0x10, 0x03]] := by
  have h := readBlock_eq s
  simp only [Prod.mk.injEq] at h
  rw [h.2]
  constructor <;> simp [readBlockEvents, openEvents, closeEvents, clockReadings, frameScan, frameStep, sentBytes, Event.inner]
  · exact SentGroup.readSettings
  · rintro b r (h | h | h | h) <;> exact h.1

theorem controlPinReset_runs (s : State) : Runs s s.controlPinReset controlPulseEvents [] := by
  constructor <;> simp [State.controlPinReset, controlPulseEvents, clockReadings, frameScan, frameStep, sentBytes, Event.inner,
    State.drivePin, State.delay, State.log]

theorem clockPinReset_runs (s : State) : Runs s s.clockPinReset clockPulseEvents [] := by
  constructor <;> simp [State.clockPinReset, State.hold, State.busEnd, clockPulseEvents, clockReadings, frameScan, frameStep,
    sentBytes, Event.inner, State.drivePin, State.delay, State.log]

theorem rearm_runs (s : State) : Runs s s.rearm [.busBegin] [] := by
  constructor <;> simp [State.rearm, clockReadings, frameScan, frameStep, sentBytes, Event.inner]

/-- A pipelined step, whatever the state: one frame, with a start, a read, both or neither (R233, R234). -/
theorem pipelinedStep_runs (s : State) :
    ∃ es gs, Runs s s.pipelinedStep es gs := by
  by_cases hp : s.phase = .capturing <;> by_cases hc : s.curMux = Config.sentinel
  · rw [pipelinedStep_first s hp hc]
    refine ⟨openEvents ++ startEvents (s.chanAt s.nextMux) ++ closeEvents, [[0x51, 0x00, s.chanAt s.nextMux, 0xFC, 0x00]], ?_⟩
    constructor
    case trace => rfl
    all_goals simp [startEvents, openEvents, closeEvents, clockReadings, frameScan, frameStep, sentBytes, Event.inner]
    exact SentGroup.start _
  · rw [pipelinedStep_next s hp hc]
    refine ⟨openEvents ++ startEvents (s.chanAt s.nextMux) ++ readEvents s.params.dontCare s.env ++ closeEvents,
      [[0x51, 0x00, s.chanAt s.nextMux, 0xFC, 0x00], [0x01]], ?_⟩
    constructor
    case trace => rfl
    all_goals simp [startEvents, readEvents, openEvents, closeEvents, clockReadings, frameScan, frameStep, sentBytes, Event.inner]
    · exact ⟨SentGroup.start _, SentGroup.readData⟩
    · rintro b r (h | h | h) <;> exact h.1
  · rw [pipelinedStep_drain_empty s hp hc]
    refine ⟨openEvents ++ closeEvents, [], ?_⟩
    constructor
    case trace => rfl
    all_goals simp [openEvents, closeEvents, clockReadings, frameScan, frameStep, sentBytes, Event.inner]
  · rw [pipelinedStep_drain s hp hc]
    refine ⟨openEvents ++ readEvents s.params.dontCare s.env ++ closeEvents, [[0x01]], ?_⟩
    constructor
    case trace => rfl
    all_goals simp [readEvents, openEvents, closeEvents, clockReadings, frameScan, frameStep, sentBytes, Event.inner]
    · exact SentGroup.readData
    · rintro b r (h | h | h) <;> exact h.1

/-! ## Bodies -/

theorem update_runs (s : State) : ∃ es gs, Runs s s.update es gs := by
  by_cases h1 : s.phase = .uninitialized ∨ s.phase = .idle
  · rw [update_noop s h1]
    exact ⟨_, _, Runs.refl s⟩
  · have hd := drdy_runs s
    have h2 : s.update = s.drdy.2 ∨ s.update = s.drdy.2.enter .idle ∨ s.update = s.drdy.2.pipelinedStep := by
      simp only [State.update]
      cases hp : s.phase <;> simp [hp] at h1 <;> cases s.drdy.1 <;> simp
    rcases h2 with h2 | h2 | h2
    · exact ⟨_, _, by rw [h2]; exact hd⟩
    · exact ⟨_, _, by rw [h2]; exact hd.trans (enter_runs _ _)⟩
    · obtain ⟨es, gs, hs⟩ := pipelinedStep_runs s.drdy.2
      exact ⟨_, _, by rw [h2]; exact hd.trans hs⟩

theorem pollLoop_runs (t0 timeout fuel : Nat) (s : State) : ∃ es gs, Runs s (pollLoop t0 timeout fuel s).st es gs := by
  induction fuel generalizing s with
  | zero =>
    obtain ⟨es, gs, hu⟩ := update_runs s
    rw [pollLoop]
    split
    · exact ⟨_, _, hu⟩
    · exact ⟨_, _, hu.trans (nowFrom_runs _ _)⟩
  | succ fuel ih =>
    obtain ⟨es, gs, hu⟩ := update_runs s
    rw [pollLoop_succ]
    split
    · exact ⟨_, _, hu⟩
    · have hn := hu.trans (nowFrom_runs 0 s.update)
      split
      · exact ⟨_, _, hn⟩
      · obtain ⟨es', gs', h⟩ := ih s.update.nowMs.2
        exact ⟨_, _, hn.trans h⟩

theorem beginResetBody_runs (s : State) : ∃ es gs, Runs s (beginResetBody s).st es gs := by
  unfold beginResetBody
  split
  · exact ⟨_, _, Runs.refl s⟩
  · exact ⟨_, _, (controlPinReset_runs s).trans (rearm_runs _)⟩
  · exact ⟨_, _, (clockPinReset_runs s).trans (rearm_runs _)⟩

theorem waitThen_runs (timeout : Nat) (c : Code) (act : State → Reply) (s : State)
    (ha : ∀ t, ∃ es gs, Runs t (act t).st es gs) : ∃ es gs, Runs s (waitThen timeout c act s).st es gs := by
  obtain ⟨es, hw, -⟩ := readyWait_runs timeout s
  unfold waitThen
  simp only
  split
  · obtain ⟨es', gs', h⟩ := ha (readyWait timeout s).st
    exact ⟨_, _, hw.trans h⟩
  · exact ⟨_, _, hw⟩

theorem beginWriteSettingsBody_runs (timeout : Nat) (s : State) : ∃ es gs, Runs s (beginWriteSettingsBody timeout s).st es gs := by
  unfold beginWriteSettingsBody
  split
  · exact ⟨_, _, Runs.refl s⟩
  · exact waitThen_runs _ _ _ _ fun t =>
      ⟨_, _, (writeBlock_runs t.settingsBlock t).trans (enter_runs .writingSettings _)⟩

theorem readAndSettle_runs (u : BitVec 1) (s : State) : ∃ es gs, Runs s (readAndSettle u s).st es gs := by
  have hr := readBlock_runs s
  unfold readAndSettle
  simp only
  split
  · exact ⟨_, _, hr.trans (adopt_runs _ _)⟩
  · split <;> exact ⟨_, _, hr⟩

theorem readSettingsBody_runs (u : BitVec 1) (timeout : Nat) (s : State) : ∃ es gs, Runs s (readSettingsBody u timeout s).st es gs := by
  unfold readSettingsBody
  split
  · exact ⟨_, _, Runs.refl s⟩
  · exact waitThen_runs _ _ _ _ (readAndSettle_runs u)

theorem beginCaptureBody_runs (timeout : Nat) (s : State) : ∃ es gs, Runs s (beginCaptureBody timeout s).st es gs := by
  unfold beginCaptureBody
  split
  · exact ⟨_, _, Runs.refl s⟩
  · refine waitThen_runs _ _ _ _ fun t => ?_
    obtain ⟨es, gs, h⟩ := pipelinedStep_runs (t.enter .capturing)
    exact ⟨_, _, (enter_runs .capturing t).trans h⟩

theorem blockingInitBody_runs (timeout : Nat) (s : State) : ∃ es gs, Runs s (blockingInitBody timeout s).st es gs := by
  have read : ∀ t0 u, ∃ es gs, Runs u (initRead t0 timeout u).st es gs := by
    intro t0 u
    obtain ⟨es, gs, h⟩ := readSettingsBody_runs 1 (u.remaining t0 timeout).1 (u.remaining t0 timeout).2
    exact ⟨_, _, (nowFrom_runs 0 u).trans h⟩
  have write : ∀ t0 u, ∃ es gs, Runs u (initWriteAndRead t0 timeout u).st es gs := by
    intro t0 u
    obtain ⟨es, gs, h⟩ := beginWriteSettingsBody_runs (u.remaining t0 timeout).1 (u.remaining t0 timeout).2
    have h1 := (nowFrom_runs 0 u).trans h
    unfold initWriteAndRead
    simp only
    split
    · exact ⟨_, _, h1⟩
    · obtain ⟨es', gs', h'⟩ := pollLoop_runs t0 timeout _ (beginWriteSettingsBody (u.remaining t0 timeout).1 (u.remaining t0 timeout).2).st
      have h2 := h1.trans h'
      split
      · obtain ⟨es'', gs'', h''⟩ := read t0 _
        exact ⟨_, _, h2.trans h''⟩
      · exact ⟨_, _, h2⟩
  obtain ⟨es, gs, h⟩ := beginResetBody_runs s.nowMs.2
  have h1 := (nowFrom_runs 0 s).trans h
  unfold blockingInitBody
  simp only
  split
  · exact ⟨_, _, h1⟩
  · obtain ⟨es', gs', h'⟩ := pollLoop_runs s.nowMs.1 timeout _ (beginResetBody s.nowMs.2).st
    have h2 := h1.trans h'
    split
    · obtain ⟨es'', gs'', h''⟩ := write s.nowMs.1 _
      exact ⟨_, _, h2.trans h''⟩
    · exact ⟨_, _, h2⟩

end Sys2Proof.Machine
end

