-- ==== Sys2Proof/Laws/Exec.lean ====
section
/-! SUPPORT. The shape of every meaning: a refusal, an unwritten read, or a framed body (R146), and the bus commands. -/

namespace Sys2Proof.Machine

theorem writeLegal_iff (sel val : BitVec 8) (s : State) : writeLegal sel val = true ↔ ¬ (Instr.wrreg sel val).refusedIn s := by
  revert val
  have h : ∀ sel val : BitVec 8, writeLegal sel val = true ↔ ¬ (sel.toNat = 0 ∨ 0x09 ≤ sel.toNat ∨
      (sel.toNat ∈ [1, 2, 3, 8] ∧ 2 ≤ val.toNat) ∨ (sel.toNat ∈ [4, 5] ∧ 4 ≤ val.toNat) ∨ (sel.toNat = 6 ∧ 8 ≤ val.toNat)) := by
    intro sel val
    have hv := val.isLt
    unfold writeLegal writableWidth
    generalize sel.toNat = n
    generalize val.toNat = v at *
    by_cases hn : n < 9
    · interval_cases n <;> (simp; try omega)
    · have : ¬ (n = 1 ∨ n = 2 ∨ n = 3 ∨ n = 4 ∨ n = 5 ∨ n = 6 ∨ n = 7 ∨ n = 8) := by omega
      split <;> simp_all
  exact fun val => h sel val

theorem element_none_iff (sel : BitVec 8) (s : State) : s.element sel = none ↔ (Instr.rdreg sel).refusedIn s := by
  simp only [State.element, Instr.refusedIn]
  generalize sel.toNat = n
  by_cases hn : n < 13
  · interval_cases n <;> simp
  · have h13 : 13 ≤ n := by omega
    simp only [h13, iff_true]
    split <;> first | omega | rfl

theorem setElement_runs (sel val : BitVec 8) (s : State) : Runs s (s.setElement sel val) [] [] := by
  unfold State.setElement
  split <;> exact Runs.still ⟨rfl, rfl, rfl, rfl, rfl, rfl, rfl, rfl, rfl⟩

/-- A host operation is refused, or reads an unwritten slot, or is a framed body that runs as `Runs` says. -/
theorem exec_host_cases (i : Instr) (s : State) (hi : i.isHost = true) :
    ∃ w, encode i = .host w ∧
      ((i.refusedIn s ∧ exec i s = .next (s.refuse w)) ∨
        (¬ i.refusedIn s ∧ i.readsUnwritten s ∧ exec i s = .next (s.markFault w)) ∨
        (¬ i.refusedIn s ∧ ¬ i.readsUnwritten s ∧
          ∃ body : State → Reply, exec i s = hostOp w body s ∧ ∀ t, ∃ es gs, Runs t (body t).st es gs)) := by
  have still : ∀ t : State, ∃ es gs, Runs t t es gs := fun t => ⟨_, _, Runs.refl t⟩
  cases i with
  | beginReset => exact ⟨_, rfl, .inr (.inr ⟨id, id, _, rfl, beginResetBody_runs⟩)⟩
  | beginWriteSettings timeout => exact ⟨_, rfl, .inr (.inr ⟨id, id, _, rfl, beginWriteSettingsBody_runs _⟩)⟩
  | readSettings u timeout => exact ⟨_, rfl, .inr (.inr ⟨id, id, _, rfl, readSettingsBody_runs _ _⟩)⟩
  | beginCapture timeout => exact ⟨_, rfl, .inr (.inr ⟨id, id, _, rfl, beginCaptureBody_runs _⟩)⟩
  | continueCapture =>
    refine ⟨_, rfl, ?_⟩
    by_cases h : s.phase = .capturing ∨ s.phase = .finishingCapture
    · refine .inr (.inr ⟨?_, id, fun t => replyCode .ok t.pipelinedStep, by simp only [exec, execContinueCapture, if_pos h],
        pipelinedStep_runs⟩)
      simp only [Instr.refusedIn]
      tauto
    · refine .inl ⟨?_, by simp only [exec, execContinueCapture, if_neg h]⟩
      simp only [Instr.refusedIn]
      tauto
  | endCapture =>
    refine ⟨_, rfl, .inr (.inr ⟨id, id, _, rfl, fun t => ?_⟩)⟩
    unfold endCaptureBody
    split
    · exact still t
    · exact ⟨_, _, enter_runs _ _⟩
  | update => exact ⟨_, rfl, .inr (.inr ⟨id, id, fun t => replyCode .ok t.update, rfl, update_runs⟩)⟩
  | blockingInit timeout => exact ⟨_, rfl, .inr (.inr ⟨id, id, _, rfl, blockingInitBody_runs _⟩)⟩
  | rdreg sel =>
    refine ⟨_, rfl, ?_⟩
    cases h : s.element sel with
    | none => exact .inl ⟨(element_none_iff sel s).1 h, by simp only [exec, execRdreg, h]⟩
    | some v =>
      refine .inr (.inr ⟨fun hr => ?_, id, fun t => ⟨.ok, v, t, false⟩, by simp only [exec, execRdreg, h], still⟩)
      simp [(element_none_iff sel s).2 hr] at h
  | wrreg sel val =>
    refine ⟨_, rfl, ?_⟩
    by_cases h : writeLegal sel val = true
    · exact .inr (.inr ⟨(writeLegal_iff sel val s).1 h, id, fun t => replyCode .ok (t.setElement sel val),
        by simp only [exec, execWrreg, if_pos h], fun t => ⟨_, _, setElement_runs sel val t⟩⟩)
    · exact .inl ⟨by_contra fun hr => h ((writeLegal_iff sel val s).2 hr), by simp only [exec, execWrreg, if_neg h]⟩
  | rdchan idx =>
    refine ⟨_, rfl, ?_⟩
    by_cases h : s.validIndex idx = true
    · refine .inr (.inr ⟨?_, id, fun t => ⟨.ok, (t.chanAt idx).setWidth 32, t, false⟩,
        by simp only [exec, execRdchan, if_pos h], still⟩)
      simpa [State.validIndex, Instr.refusedIn, BitVec.lt_def] using h
    · refine .inl ⟨?_, by simp only [exec, execRdchan, if_neg h]⟩
      simpa [State.validIndex, Instr.refusedIn, BitVec.lt_def] using h
  | wrchan idx val =>
    refine ⟨_, rfl, ?_⟩
    by_cases h : s.validIndex idx = true
    · refine .inr (.inr ⟨?_, id, fun t => replyCode .ok (t.setChan idx val),
        by simp only [exec, execWrchan, if_pos h], fun t => ⟨_, _, Runs.still (by simp [replyCode])⟩⟩)
      simpa [State.validIndex, Instr.refusedIn, BitVec.lt_def] using h
    · refine .inl ⟨?_, by simp only [exec, execWrchan, if_neg h]⟩
      simpa [State.validIndex, Instr.refusedIn, BitVec.lt_def] using h
  | rdres idx =>
    refine ⟨_, rfl, ?_⟩
    by_cases h : s.validIndex idx = true
    · have hr : ¬ (Instr.rdres idx).refusedIn s := by
        simpa [State.validIndex, Instr.refusedIn, BitVec.lt_def] using h
      have hn : idx.toNat < s.params.n.toNat := by simpa [State.validIndex, BitVec.lt_def] using h
      cases hw : s.writtenAt idx with
      | true =>
        refine .inr (.inr ⟨hr, ?_, fun t => ⟨.ok, t.resultAt idx, t, false⟩, by simp [exec, execRdres, h, hw], still⟩)
        simp [Instr.readsUnwritten, hw]
      | false => exact .inr (.inl ⟨hr, ⟨hn, hw⟩, by simp [exec, execRdres, h, hw]⟩)
    · refine .inl ⟨?_, by simp only [exec, execRdres, if_neg h]⟩
      simpa [State.validIndex, Instr.refusedIn, BitVec.lt_def] using h
  | takeNewData =>
    exact ⟨_, rfl, .inr (.inr ⟨id, id, fun t => ⟨.ok, t.newData.setWidth 32, t.clearNewData, false⟩, rfl,
      fun t => ⟨_, _, Runs.still (by simp)⟩⟩)⟩
  | wreg _ _ _ => simp [Instr.isHost] at hi
  | rreg _ _ => simp [Instr.isHost] at hi
  | sync => simp [Instr.isHost] at hi
  | wakeup => simp [Instr.isHost] at hi
  | rdata => simp [Instr.isHost] at hi

/-- A bus command answers a next state that differs in the trace and the pending draws only. -/
theorem exec_bus_next (i : Instr) (s : State) (hi : i.isHost = false) :
    ∃ t es, exec i s = .next t ∧ t.trace = s.trace ++ es ∧ (∀ e ∈ es, (∃ b, e = .tx b) ∨ (∃ d, e = .delay d) ∨ ∃ b r, e = .xfer b r) ∧
      t.env.fair = s.env.fair ∧ t.env.now = s.env.now ∧ t = { s with trace := t.trace, env := t.env } := by
  cases i <;> simp [Instr.isHost] at hi
  case wreg r n values =>
    have h := wreg_eq r n values s
    exact ⟨s.wreg r n values, .tx (regCommandByte Config.cmdWreg r) :: .tx (countByte n) :: values.map Event.tx, rfl, by rw [h],
      by simp, by rw [h], by rw [h], by rw [h]⟩
  case rreg r n =>
    have h := rreg_eq r n s
    exact ⟨(s.rreg r n).2, .tx (regCommandByte Config.cmdRreg r) :: .tx (countByte n) :: .delay .t6 ::
      (List.range (n.toNat + 1)).map (fun j => Event.xfer s.params.dontCare (s.env.byteAt j)), rfl, by rw [h],
      by simp, by rw [h]; rfl, by rw [h]; rfl, by rw [h]⟩
  case sync =>
    have h := sync_eq s
    exact ⟨s.sync, [.tx 0xFC, .delay .t11Long], rfl, by rw [h], by simp, by rw [h], by rw [h], by rw [h]⟩
  case wakeup => exact ⟨s.wakeup, [.tx 0x00], rfl, rfl, by simp, rfl, rfl, rfl⟩
  case rdata =>
    have h := rdata_eq s
    exact ⟨s.rdata.2, readEvents s.params.dontCare s.env, rfl, by rw [h], by simp [readEvents], by rw [h]; rfl, by rw [h]; rfl,
      by rw [h]⟩

/-! ## The three operations that wait -/

theorem exec_beginWriteSettings_idle (timeout : BitVec 32) (s : State) (h : s.phase = .idle) :
    exec (.beginWriteSettings timeout) s = hostOp (hostWord 0x02 0 0 timeout) (waitThen timeout.toNat .notReadyToWriteSettings
      (fun s1 => replyCode .ok ((s1.writeRegs Config.regStatus 3 s1.settingsBlock.bytes).enter .writingSettings))) s := by
  rw [exec, execBeginWriteSettings]
  apply hostOp_congr
  rw [beginWriteSettingsBody, if_neg (by simp [h])]

theorem exec_readSettings_idle (u : BitVec 1) (timeout : BitVec 32) (s : State) (h : s.phase = .idle) :
    exec (.readSettings u timeout) s = hostOp (hostWord 0x03 0 (updateLocalByte u) timeout)
      (waitThen timeout.toNat .notReadyToReadSettings (readAndSettle u)) s := by
  rw [exec, execReadSettings]
  apply hostOp_congr
  rw [readSettingsBody, if_neg (by simp [h])]

theorem exec_beginCapture_idle (timeout : BitVec 32) (s : State) (h : s.phase = .idle) :
    exec (.beginCapture timeout) s = hostOp (hostWord 0x04 0 0 timeout) (waitThen timeout.toNat .notReadyToBeginCapture
      (fun s1 => replyCode .ok (s1.enter .capturing).pipelinedStep)) s := by
  rw [exec, execBeginCapture]
  apply hostOp_congr
  rw [beginCaptureBody, if_neg (by simp [h])]

end Sys2Proof.Machine
end

