-- ==== Sys2Proof/Laws/Tables.lean ====
section
/-! SUPPORT. The laws of the indexed tables: a read after a write, the entries a write leaves alone, and that every operation that
writes a table keeps the canonical form `Memory.wf`. -/

namespace Sys2Proof.Machine

theorem wf_iff (s : State) : Memory.wf s = true ↔
    s.chan.length = s.params.n.toNat ∧ s.result.length = s.params.n.toNat ∧ s.wr.length = s.params.n.toNat := by
  simp [Memory.wf, and_assoc]

/-! ## Read after write -/

theorem chanAt_setChan_self (i : BitVec 8) (v : Byte) (s : State) (h : i.toNat < s.chan.length) : (s.setChan i v).chanAt i = v := by
  simp [State.chanAt, h]

theorem chanAt_setChan_other (i j : BitVec 8) (v : Byte) (s : State) (h : j ≠ i) : (s.setChan i v).chanAt j = s.chanAt j := by
  have hn : i.toNat ≠ j.toNat := fun he => h (BitVec.eq_of_toNat_eq he.symm)
  simp [State.chanAt, hn]

theorem resultAt_storeSample_self (i : BitVec 8) (v : BitVec 32) (s : State) (h : i.toNat < s.result.length) :
    (s.storeSample i v).resultAt i = v := by
  simp [State.resultAt, h]

theorem resultAt_storeSample_other (i j : BitVec 8) (v : BitVec 32) (s : State) (h : j ≠ i) :
    (s.storeSample i v).resultAt j = s.resultAt j := by
  have hn : i.toNat ≠ j.toNat := fun he => h (BitVec.eq_of_toNat_eq he.symm)
  simp [State.resultAt, hn]

theorem writtenAt_storeSample_self (i : BitVec 8) (v : BitVec 32) (s : State) (h : i.toNat < s.wr.length) :
    (s.storeSample i v).writtenAt i = true := by
  simp [State.writtenAt, h]

theorem writtenAt_storeSample_other (i j : BitVec 8) (v : BitVec 32) (s : State) (h : j ≠ i) :
    (s.storeSample i v).writtenAt j = s.writtenAt j := by
  have hn : i.toNat ≠ j.toNat := fun he => h (BitVec.eq_of_toNat_eq he.symm)
  simp [State.writtenAt, hn]

/-! ## The canonical form is kept -/

theorem wf_construct (p : Params) (cfg : Settings) (chan : List Byte) (oos : BitVec 1) (h : chan.length = p.n.toNat) :
    Memory.wf (State.construct p cfg chan oos) = true := by
  simp [wf_iff, State.construct, h]

theorem wf_reset : Memory.wf State.reset = true := wf_construct _ _ _ _ rfl

/-- The form depends on the tables' lengths and on `N` alone. -/
theorem wf_congr {s t : State} (h : Memory.wf s = true) (hc : t.chan.length = s.chan.length)
    (hr : t.result.length = s.result.length) (hw : t.wr.length = s.wr.length) (hn : t.params = s.params) : Memory.wf t = true := by
  rw [wf_iff] at *
  rw [hc, hr, hw, hn]
  exact h

theorem wf_setChan (i : BitVec 8) (v : Byte) (s : State) (h : Memory.wf s = true) : Memory.wf (s.setChan i v) = true :=
  wf_congr h (by simp) rfl rfl rfl

theorem wf_adopt (b : Block) (s : State) (h : Memory.wf s = true) : Memory.wf (s.adopt b) = true :=
  wf_congr h (by simp) rfl rfl rfl

theorem wf_storeSample (i : BitVec 8) (v : BitVec 32) (s : State) (h : Memory.wf s = true) :
    Memory.wf (s.storeSample i v) = true :=
  wf_congr h rfl (by simp) (by simp) rfl

theorem wf_readSample (i : BitVec 8) (s : State) (h : Memory.wf s = true) : Memory.wf (s.readSample i) = true := by
  rw [readSample_eq]
  exact wf_congr h rfl (by simp) (by simp) rfl

/-! ## Samples -/

/-- Every decoded sample lies in the range of R200. -/
theorem decodeSample_range (b2 b1 b0 : Byte) :
    -(2 ^ 23 : Int) ≤ (decodeSample b2 b1 b0).toInt ∧ (decodeSample b2 b1 b0).toInt < (2 ^ 23 : Int) := by
  unfold decodeSample
  rw [BitVec.toInt_signExtend_of_le (by decide)]
  have h1 := BitVec.le_toInt (b2 ++ b1 ++ b0)
  have h2 := BitVec.toInt_lt (x := b2 ++ b1 ++ b0)
  simp at h1 h2
  omega

end Sys2Proof.Machine
end

