-- ==== Sys2Proof/Laws/Inv.lean ====
section
/-! SUPPORT. What the shared operations do to the invariant of Safety.lean: which fields it depends on, and that the waits, the settings
transactions, the reset pulses and the pipelined step keep it. -/

namespace Sys2Proof.Machine

/-- The invariant depends on the elements of R51 alone. -/
theorem State.Inv.congr {s t : State} (h : s.Inv) (hp : t.params = s.params) (hph : t.phase = s.phase) (hch : t.chan = s.chan)
    (hnm : t.nextMux = s.nextMux) (hcm : t.curMux = s.curMux) (hre : t.result = s.result) (hw : t.wr = s.wr)
    (hnd : t.newData = s.newData) (hcs : t.csLvl = s.csLvl) (hsy : t.syncLvl = s.syncLvl) (hrs : t.rstLvl = s.rstLvl)
    (hon : t.busOn = s.busOn) (hhe : t.busHeld = s.busHeld) : t.Inv where
  channels := by rw [hp]; exact h.channels
  tables := by have := h.tables; rw [wf_iff] at *; rw [hch, hre, hw, hp]; exact this
  nextValid := by rw [hnm, hp]; exact h.nextValid
  curValid := by rw [hcm, hp]; exact h.curValid
  newValid := by rw [hnd, hp]; exact h.newValid
  inFlight := by rw [hcm, hph]; exact h.inFlight
  levels := by rw [hcs, hsy, hrs, hhe]; exact h.levels
  busReady := by rw [hph, hon]; exact h.busReady
  samples := by rw [hre]; exact h.samples
  newWritten := by rw [hnd, State.writtenAt, hw]; exact h.newWritten

theorem State.Inv.log {s : State} (h : s.Inv) (e : Event) : (s.log e).Inv := h.congr rfl rfl rfl rfl rfl rfl rfl rfl rfl rfl rfl rfl rfl

theorem State.Inv.reply {s : State} (h : s.Inv) (c : Code) (d : BitVec 32) : (s.reply c d).Inv :=
  h.congr rfl rfl rfl rfl rfl rfl rfl rfl rfl rfl rfl rfl rfl

theorem State.Inv.ofInputs {s t : State} (h : s.Inv) (k : SameButInputs s t) : t.Inv := by
  rw [k.1]
  exact h.congr rfl rfl rfl rfl rfl rfl rfl rfl rfl rfl rfl rfl rfl

theorem State.Inv.idle_curMux {s : State} (h : s.Inv) (hp : s.phase ≠ .capturing) (hq : s.phase ≠ .finishingCapture) :
    s.curMux = Config.sentinel := by
  by_contra hc
  rcases h.inFlight.1 hc with k | k
  · exact hp k
  · exact hq k

/-- A phase outside the captures may be entered from a phase outside the captures. -/
theorem State.Inv.enter {s : State} (h : s.Inv) (p : Phase) (hp : p ≠ .capturing ∧ p ≠ .finishingCapture ∧ p ≠ .uninitialized)
    (hc : s.curMux = Config.sentinel) (hs : s.phase ≠ .uninitialized) : (s.enter p).Inv where
  channels := h.channels
  tables := h.tables
  nextValid := h.nextValid
  curValid := h.curValid
  newValid := h.newValid
  inFlight := by simp [hc, hp.1, hp.2.1]
  levels := h.levels
  busReady := fun _ => h.busReady hs
  samples := h.samples
  newWritten := h.newWritten

theorem nextIndex_lt {s : State} (h : 1 ≤ s.params.n.toNat) (k : BitVec 8) : s.nextIndex k < s.params.n := by
  have hn := s.params.n.isLt
  have hm : (k.toNat + 1) % s.params.n.toNat < s.params.n.toNat := Nat.mod_lt _ (by omega)
  simp only [State.nextIndex, BitVec.lt_def, BitVec.toNat_ofNat]
  omega

theorem ne_sentinel_of_lt {i n : BitVec 8} (h : i < n) : i ≠ Config.sentinel := by
  rintro rfl
  have hn := n.isLt
  simp only [Config.sentinel, BitVec.lt_def] at h
  simp at h
  omega

theorem sample_range (e : Env) : -(2 ^ 23 : Int) ≤ e.nextSample.toInt ∧ e.nextSample.toInt < (2 ^ 23 : Int) := decodeSample_range _ _ _

theorem samples_set {xs : List (BitVec 32)} {v : BitVec 32} {i : Nat}
    (h : ∀ x ∈ xs, -(2 ^ 23 : Int) ≤ x.toInt ∧ x.toInt < (2 ^ 23 : Int)) (hv : -(2 ^ 23 : Int) ≤ v.toInt ∧ v.toInt < (2 ^ 23 : Int)) :
    ∀ x ∈ xs.set i v, -(2 ^ 23 : Int) ≤ x.toInt ∧ x.toInt < (2 ^ 23 : Int) := by
  intro x hx
  rcases List.mem_or_eq_of_mem_set hx with hx | rfl
  · exact h x hx
  · exact hv

/-- A pipelined step taken in a capture keeps the invariant (R233, R44, R45). -/
theorem State.Inv.pipelinedStep {s : State} (h : s.Inv) (hp : s.phase = .capturing ∨ s.phase = .finishingCapture) :
    s.pipelinedStep.Inv := by
  have hc : s.curMux ≠ Config.sentinel := h.inFlight.2 hp
  have hlt : s.curMux < s.params.n := h.curValid.resolve_left hc
  have hwf := (wf_iff s).1 h.tables
  have hw : s.curMux.toNat < s.wr.length := by rw [hwf.2.2]; exact hlt
  have hon : s.busOn = true := h.busReady (by rcases hp with hp | hp <;> simp [hp])
  by_cases hcap : s.phase = .capturing
  · rw [pipelinedStep_next s hcap hc]
    exact {
      channels := h.channels
      tables := wf_congr h.tables rfl (by simp) (by simp) rfl
      nextValid := nextIndex_lt h.channels _
      curValid := .inr h.nextValid
      newValid := .inr hlt
      inFlight := by simp [hcap, ne_sentinel_of_lt h.nextValid]
      levels := ⟨rfl, h.levels.2.1, h.levels.2.2.1, rfl⟩
      busReady := fun _ => hon
      samples := samples_set h.samples (sample_range _)
      newWritten := fun _ => by simp [State.writtenAt, hw] }
  · rw [pipelinedStep_drain s hcap hc]
    exact {
      channels := h.channels
      tables := wf_congr h.tables rfl (by simp) (by simp) rfl
      nextValid := h.nextValid
      curValid := .inl rfl
      newValid := .inr hlt
      inFlight := by simp
      levels := ⟨rfl, h.levels.2.1, h.levels.2.2.1, rfl⟩
      busReady := fun _ => hon
      samples := samples_set h.samples (sample_range _)
      newWritten := fun _ => by simp [State.writtenAt, hw] }

/-- The first step of a capture, taken from `Idle` with the phase already entered (R230). -/
theorem State.Inv.firstStep {s : State} (h : s.Inv) (hp : s.phase = .idle) : (s.enter .capturing).pipelinedStep.Inv := by
  have hc : s.curMux = Config.sentinel := h.idle_curMux (by simp [hp]) (by simp [hp])
  rw [pipelinedStep_first (s.enter .capturing) rfl hc]
  exact {
    channels := h.channels
    tables := h.tables
    nextValid := nextIndex_lt (s := s) h.channels _
    curValid := .inr h.nextValid
    newValid := h.newValid
    inFlight := by simp [ne_sentinel_of_lt h.nextValid]
    levels := ⟨rfl, h.levels.2.1, h.levels.2.2.1, rfl⟩
    busReady := fun _ => h.busReady (by simp [hp])
    samples := h.samples
    newWritten := h.newWritten }

theorem State.Inv.update {s : State} (h : s.Inv) : s.update.Inv := by
  have hd : s.drdy.2.Inv := h.ofInputs (drdy_sameButInputs s)
  cases hp : s.phase with
  | uninitialized => rw [update_noop s (by simp [hp])]; exact h
  | idle => rw [update_noop s (by simp [hp])]; exact h
  | resetting =>
    simp only [State.update, hp]
    split
    · exact hd.enter .idle (by simp) (h.idle_curMux (by simp [hp]) (by simp [hp])) (by change s.phase ≠ _; simp [hp])
    · exact hd
  | writingSettings =>
    simp only [State.update, hp]
    split
    · exact hd.enter .idle (by simp) (h.idle_curMux (by simp [hp]) (by simp [hp])) (by change s.phase ≠ _; simp [hp])
    · exact hd
  | capturing =>
    simp only [State.update, hp]
    split
    · exact hd.pipelinedStep (.inl hp)
    · exact hd
  | finishingCapture =>
    simp only [State.update, hp]
    split
    · exact hd.pipelinedStep (.inr hp)
    · exact hd

theorem State.Inv.pollLoop {s : State} (h : s.Inv) (t0 timeout fuel : Nat) : (pollLoop t0 timeout fuel s).st.Inv := by
  induction fuel generalizing s with
  | zero =>
    rw [Sys2Proof.Machine.pollLoop]
    split
    · exact h.update
    · exact h.update.ofInputs (waitOut_sameButInputs _ _ _)
  | succ fuel ih =>
    rw [pollLoop_succ]
    have hn : s.update.nowMs.2.Inv := h.update.ofInputs (nowFrom_sameButInputs 0 _)
    split
    · exact h.update
    · split
      · exact hn
      · exact ih hn

/-- A polling loop that ends by `READY` ends in `Idle` (R260). -/
theorem pollLoop_ready_idle (t0 timeout fuel : Nat) (s : State) (h : (pollLoop t0 timeout fuel s).ready = true) :
    (pollLoop t0 timeout fuel s).st.phase = .idle := by
  induction fuel generalizing s with
  | zero =>
    rw [pollLoop] at *
    split at h
    · next hi => simp [hi]
    · simp [waitOut] at h
  | succ fuel ih =>
    rw [pollLoop_succ] at *
    split at h
    · next hi => simp [hi]
    · next hi =>
      split at h
      · simp at h
      · next hx =>
        simp only [hi, if_false, hx]
        exact ih _ h

theorem State.Inv.beginReset {s : State} (h : s.Inv) : (beginResetBody s).st.Inv := by
  have build : ∀ t : State, t.params = s.params → t.phase = .resetting → t.chan = s.chan → t.nextMux = s.nextMux →
      t.curMux = Config.sentinel → t.result = s.result → t.wr = s.wr → t.newData = s.newData → t.csLvl = .high →
      t.syncLvl = s.syncLvl → t.rstLvl = .high → t.busOn = true → t.busHeld = s.busHeld → t.Inv := by
    intro t hp hph hch hnm hcm hre hw hnd hcs hsy hrs hon hhe
    exact {
      channels := by rw [hp]; exact h.channels
      tables := wf_congr h.tables (by rw [hch]) (by rw [hre]) (by rw [hw]) hp
      nextValid := by rw [hnm, hp]; exact h.nextValid
      curValid := .inl hcm
      newValid := by rw [hnd, hp]; exact h.newValid
      inFlight := by simp [hcm, hph]
      levels := by rw [hcs, hsy, hrs, hhe]; exact ⟨rfl, h.levels.2.1, rfl, h.levels.2.2.2⟩
      busReady := fun _ => hon
      samples := by rw [hre]; exact h.samples
      newWritten := by rw [hnd, State.writtenAt, hw]; exact h.newWritten }
  unfold beginResetBody
  split
  · exact h
  · rw [controlPinReset_eq, rearm_eq]
    exact build _ rfl rfl rfl rfl rfl rfl rfl rfl h.levels.1 rfl rfl rfl rfl
  · rw [clockPinReset_eq, rearm_eq]
    exact build _ rfl rfl rfl rfl rfl rfl rfl rfl rfl rfl rfl rfl rfl

theorem State.Inv.waitThen {s : State} (h : s.Inv) (timeout : Nat) (c : Code) (act : State → Reply)
    (ha : ∀ t : State, t.Inv → t.phase = s.phase → (act t).st.Inv) : (waitThen timeout c act s).st.Inv := by
  have k := readyWait_sameButInputs timeout s
  have hw := h.ofInputs k
  unfold Sys2Proof.Machine.waitThen
  simp only
  split
  · exact ha _ hw (by rw [k.1])
  · exact hw

theorem State.Inv.beginWriteSettings {s : State} (h : s.Inv) (timeout : Nat) : (beginWriteSettingsBody timeout s).st.Inv := by
  unfold beginWriteSettingsBody
  split
  · exact h
  · next hp =>
    refine h.waitThen _ _ _ fun t ht hph => ?_
    have hi : t.phase = .idle := by rw [hph]; simpa using hp
    simp only [replyCode, writeBlock_eq]
    refine State.Inv.enter ?_ _ (by simp) (ht.idle_curMux (by simp [hi]) (by simp [hi])) (by simp [hi])
    exact ht.congr rfl rfl rfl rfl rfl rfl rfl rfl ht.levels.1.symm rfl rfl rfl ht.levels.2.2.2.symm

theorem State.Inv.adopt {s : State} (h : s.Inv) (b : Block) : (s.adopt b).Inv where
  channels := h.channels
  tables := wf_adopt b s h.tables
  nextValid := h.nextValid
  curValid := h.curValid
  newValid := h.newValid
  inFlight := h.inFlight
  levels := h.levels
  busReady := h.busReady
  samples := h.samples
  newWritten := h.newWritten

theorem State.Inv.readAndSettle {s : State} (h : s.Inv) (u : BitVec 1) : (readAndSettle u s).st.Inv := by
  rw [readAndSettle_eq]
  have hr : ({ s with
      trace := s.trace ++ readBlockEvents s.params.dontCare s.env
      busHeld := false
      csLvl := .high
      env := s.env.afterBytes 4 } : State).Inv :=
    h.congr rfl rfl rfl rfl rfl rfl rfl rfl h.levels.1.symm rfl rfl rfl h.levels.2.2.2.symm
  split
  · exact hr.adopt _
  · exact hr

theorem State.Inv.readSettings {s : State} (h : s.Inv) (u : BitVec 1) (timeout : Nat) : (readSettingsBody u timeout s).st.Inv := by
  unfold readSettingsBody
  split
  · exact h
  · exact h.waitThen _ _ _ fun t ht _ => ht.readAndSettle u

theorem State.Inv.beginCapture {s : State} (h : s.Inv) (timeout : Nat) : (beginCaptureBody timeout s).st.Inv := by
  unfold beginCaptureBody
  split
  · exact h
  · next hp => exact h.waitThen _ _ _ fun t ht hph => ht.firstStep (by rw [hph]; simpa using hp)

end Sys2Proof.Machine
end

