-- ==== Sys2Proof/Laws/PerInstr.lean ====
section
/-! SUPPORT. Statements made per instruction. Family `TableRow`: the encoding of the instruction is a word of its row of
spec/opcode_table.json. -/

namespace Sys2Proof.Laws.TableRow

/-- The encoding of `i` matches a row of the opcode table: a host row by the whole word (R106), a bus row by the first byte (R123). -/
def Statement (i : Instr) : Prop :=
  match encode i with
  | .host w => ∃ row ∈ hostRows, w &&& row.mask = row.pattern
  | .bus bytes => ∃ b ∈ bytes.head?, ∃ row ∈ busRows, b &&& row.mask = row.pattern

theorem beginReset : Statement (.beginReset) :=
  ⟨⟨0x0100000000000000, 0xFFFFFFFFFFFFFFFF⟩, by decide,
    hostWord_row _ _ _ _ 0xFF 0xFF 0xFF 0x01 0 0 0xFFFFFFFF 0 _ _ (by decide) (by decide) (by decide) (by decide) (by decide) (by decide)⟩

theorem beginWriteSettings (timeout : BitVec 32) : Statement (.beginWriteSettings timeout) :=
  ⟨⟨0x0200000000000000, 0xFFFFFFFF00000000⟩, by decide,
    hostWord_row _ _ _ _ 0xFF 0xFF 0xFF 0x02 0 0 0 0 _ _ (by decide) (by decide) (by decide) (by decide) (by decide) (by simp)⟩

theorem readSettings (u : BitVec 1) (timeout : BitVec 32) : Statement (.readSettings u timeout) :=
  ⟨⟨0x0300000000000000, 0xFFFFFEFF00000000⟩, by decide,
    hostWord_row _ _ _ _ 0xFF 0xFF 0xFE 0x03 0 0 0 0 _ _ (by decide) (by decide) (by decide) (by decide) (updateLocalByte_masked u) (by simp)⟩

theorem beginCapture (timeout : BitVec 32) : Statement (.beginCapture timeout) :=
  ⟨⟨0x0400000000000000, 0xFFFFFFFF00000000⟩, by decide,
    hostWord_row _ _ _ _ 0xFF 0xFF 0xFF 0x04 0 0 0 0 _ _ (by decide) (by decide) (by decide) (by decide) (by decide) (by simp)⟩

theorem continueCapture : Statement (.continueCapture) :=
  ⟨⟨0x0500000000000000, 0xFFFFFFFFFFFFFFFF⟩, by decide,
    hostWord_row _ _ _ _ 0xFF 0xFF 0xFF 0x05 0 0 0xFFFFFFFF 0 _ _ (by decide) (by decide) (by decide) (by decide) (by decide) (by decide)⟩

theorem endCapture : Statement (.endCapture) :=
  ⟨⟨0x0600000000000000, 0xFFFFFFFFFFFFFFFF⟩, by decide,
    hostWord_row _ _ _ _ 0xFF 0xFF 0xFF 0x06 0 0 0xFFFFFFFF 0 _ _ (by decide) (by decide) (by decide) (by decide) (by decide) (by decide)⟩

theorem update : Statement (.update) :=
  ⟨⟨0x0700000000000000, 0xFFFFFFFFFFFFFFFF⟩, by decide,
    hostWord_row _ _ _ _ 0xFF 0xFF 0xFF 0x07 0 0 0xFFFFFFFF 0 _ _ (by decide) (by decide) (by decide) (by decide) (by decide) (by decide)⟩

theorem blockingInit (timeout : BitVec 32) : Statement (.blockingInit timeout) :=
  ⟨⟨0x0800000000000000, 0xFFFFFFFF00000000⟩, by decide,
    hostWord_row _ _ _ _ 0xFF 0xFF 0xFF 0x08 0 0 0 0 _ _ (by decide) (by decide) (by decide) (by decide) (by decide) (by simp)⟩

theorem rdreg (sel : BitVec 8) : Statement (.rdreg sel) :=
  ⟨⟨0x1000000000000000, 0xFF00FFFFFFFFFFFF⟩, by decide,
    hostWord_row _ _ _ _ 0xFF 0 0xFF 0x10 0 0 0xFFFFFFFF 0 _ _ (by decide) (by decide) (by decide) (and_zero8 _) (by decide) (by decide)⟩

theorem wrreg (sel : BitVec 8) (val : BitVec 8) : Statement (.wrreg sel val) :=
  ⟨⟨0x1100000000000000, 0xFF0000FFFFFFFFFF⟩, by decide,
    hostWord_row _ _ _ _ 0xFF 0 0 0x11 0 0 0xFFFFFFFF 0 _ _ (by decide) (by decide) (by decide) (and_zero8 _) (and_zero8 _) (by decide)⟩

theorem rdchan (idx : BitVec 8) : Statement (.rdchan idx) :=
  ⟨⟨0x1200000000000000, 0xFF00FFFFFFFFFFFF⟩, by decide,
    hostWord_row _ _ _ _ 0xFF 0 0xFF 0x12 0 0 0xFFFFFFFF 0 _ _ (by decide) (by decide) (by decide) (and_zero8 _) (by decide) (by decide)⟩

theorem wrchan (idx : BitVec 8) (val : BitVec 8) : Statement (.wrchan idx val) :=
  ⟨⟨0x1300000000000000, 0xFF0000FFFFFFFFFF⟩, by decide,
    hostWord_row _ _ _ _ 0xFF 0 0 0x13 0 0 0xFFFFFFFF 0 _ _ (by decide) (by decide) (by decide) (and_zero8 _) (and_zero8 _) (by decide)⟩

theorem rdres (idx : BitVec 8) : Statement (.rdres idx) :=
  ⟨⟨0x1400000000000000, 0xFF00FFFFFFFFFFFF⟩, by decide,
    hostWord_row _ _ _ _ 0xFF 0 0xFF 0x14 0 0 0xFFFFFFFF 0 _ _ (by decide) (by decide) (by decide) (and_zero8 _) (by decide) (by decide)⟩

theorem takeNewData : Statement (.takeNewData) :=
  ⟨⟨0x1500000000000000, 0xFFFFFFFFFFFFFFFF⟩, by decide,
    hostWord_row _ _ _ _ 0xFF 0xFF 0xFF 0x15 0 0 0xFFFFFFFF 0 _ _ (by decide) (by decide) (by decide) (by decide) (by decide) (by decide)⟩

theorem wreg (r n : BitVec 4) (values : List Byte) : Statement (.wreg r n values) :=
  ⟨_, rfl, ⟨0x50, 0xF0⟩, by decide, by revert r; decide⟩

theorem rreg (r n : BitVec 4) : Statement (.rreg r n) := ⟨_, rfl, ⟨0x10, 0xF0⟩, by decide, by revert r; decide⟩

theorem sync : Statement .sync := ⟨_, rfl, ⟨0xFC, 0xFF⟩, by decide, by decide⟩

theorem wakeup : Statement .wakeup := ⟨_, rfl, ⟨0x00, 0xFF⟩, by decide, by decide⟩

theorem rdata : Statement .rdata := ⟨_, rfl, ⟨0x01, 0xFF⟩, by decide, by decide⟩

end Sys2Proof.Laws.TableRow
end

