-- ==== Sys2Proof/Tests/Slice0.lean ====
section
/-! SUPPORT. The model's own tests. Expected words and results are the spec's: its encoding tables (spec/30_encoding.md R102, R116, R120
to R123), its examples, and the vectors of spec/95_test_vectors.md sections 1 and 2. The witnesses show that the hypotheses of each
obligation can be met together, at the boundaries where its clauses meet. -/

namespace Sys2Proof.Tests

open Sys2Proof Sys2Proof.Machine

/-! ## States and readers -/

/-- Parameters of the vectors of spec/95 sections 2.5 and 2.6: `WAIT_CMP = GE`. The don't-care byte, the pins and
the bus handle are sample values. -/
def params (n : BitVec 8) (strategy : ResetStrategy) : Params := ⟨n, strategy, .ge, 0x5A, ⟨11, 12, 13, 14⟩, 1⟩

/-- Three channels, a reset pin, `CFG` of the example of R213, `CHAN = [08, 18, 28]`. -/
def built : State := State.construct (params 3 .controlPin) ⟨0, 1, 0, 0, 0, 0, 0xA1⟩ [0x08, 0x18, 0x28] 0

/-- Pending draws: the sample order of a wait, the levels, the clock advances, the bytes. -/
def draws (order : List Sample) (ready : List Level) (ticks : List Nat) (bytes : List Byte) : Env :=
  ⟨true, 0, 0, ready, ticks, bytes, order⟩

/-- `Idle` after a reset. -/
def idle (e : Env) : State := { built with phase := .idle, busOn := true, env := e }

/-- `Capturing`, channel 0 in flight, channel 1 next. -/
def capturing (e : Env) : State := { built with phase := .capturing, curMux := 0, nextMux := 1, busOn := true, env := e }

/-- `FinishingCapture`, channel 2 in flight, channel 0 next. -/
def finishing (e : Env) : State := { built with phase := .finishingCapture, curMux := 2, nextMux := 0, busOn := true, env := e }

/-- No draw pending. -/
def none' : Env := draws [] [] [] []

/-- A wait that samples the line `LOW` at once. -/
def readyAtOnce : Env := draws [.readyLine] [.low] [4] []

/-- A wait of 6 ms that samples `HIGH` at 4 ms and reads 10 ms (spec/95 section 2.5). -/
def tooLate : Env := draws [.readyLine, .clock] [.high] [4, 6] []

/-- The next state of an outcome. -/
def nextOf : Outcome → Option State
  | .next s => some s
  | .fault _ => none
  | .refused _ => none

/-- What an instruction appends to an empty trace. -/
def traceOf (i : Instr) (s : State) : Option (List Event) := (nextOf (exec i s)).map (·.trace)

/-- The result words an instruction returns. -/
def resultsOf (i : Instr) (s : State) : Option (List ResultWord) := (nextOf (exec i s)).map (·.results)

/-! ## Well-formed terms -/

theorem test_wellFormed_refuses_missing_value_byte : (Instr.wreg 0 3 [1, 2, 3]).wellFormed = false := by decide
theorem test_wellFormed_refuses_extra_value_byte : (Instr.wreg 1 0 [0x18, 0x28]).wellFormed = false := by decide
theorem test_wellFormed_refuses_no_value_byte : (Instr.wreg 1 0 []).wellFormed = false := by decide
theorem test_wellFormed_accepts_exact_values : (Instr.wreg 1 0 [0x18]).wellFormed = true := by decide

/-! ## Decoding: words written out from the fields of R100 to R102 and the patterns of R120 to R122 -/

theorem test_decode_beginReset : decodeHost 0x0100000000000000 = .ok .beginReset := by decide
theorem test_decode_beginWriteSettings : decodeHost 0x02000000000001F4 = .ok (.beginWriteSettings 500) := by decide
theorem test_decode_readSettings : decodeHost 0x0300010000000064 = .ok (.readSettings 1 100) := by decide
theorem test_decode_beginCapture : decodeHost 0x040000000000000A = .ok (.beginCapture 10) := by decide
theorem test_decode_continueCapture : decodeHost 0x0500000000000000 = .ok .continueCapture := by decide
theorem test_decode_endCapture : decodeHost 0x0600000000000000 = .ok .endCapture := by decide
theorem test_decode_update : decodeHost 0x0700000000000000 = .ok .update := by decide
theorem test_decode_blockingInit : decodeHost 0x08000000000003E8 = .ok (.blockingInit 1000) := by decide
theorem test_decode_rdreg : decodeHost 0x100C000000000000 = .ok (.rdreg 0x0C) := by decide
theorem test_decode_wrreg : decodeHost 0x1107A10000000000 = .ok (.wrreg 0x07 0xA1) := by decide
theorem test_decode_rdchan : decodeHost 0x1202000000000000 = .ok (.rdchan 2) := by decide
theorem test_decode_wrchan : decodeHost 0x1301180000000000 = .ok (.wrchan 1 0x18) := by decide
theorem test_decode_rdres : decodeHost 0x1401000000000000 = .ok (.rdres 1) := by decide
theorem test_decode_takeNewData : decodeHost 0x1500000000000000 = .ok .takeNewData := by decide
theorem test_decode_wreg : decode (.bus [0b01010001, 0b00000000, 0x18]) = .ok (.wreg 1 0 [0x18]) := by decide
theorem test_decode_rreg : decode (.bus [0b00010000, 0b00000011]) = .ok (.rreg 0 3) := by decide
theorem test_decode_sync : decode (.bus [0b11111100]) = .ok .sync := by decide
theorem test_decode_wakeup : decode (.bus [0b00000000]) = .ok .wakeup := by decide
theorem test_decode_rdata : decode (.bus [0b00000001]) = .ok .rdata := by decide

/-- The refused words of spec/95 section 2.1. -/
theorem test_decode_refuses_reserved_words :
    decodeHost 0x0100000000000001 = .error .reservedField ∧ decodeHost 0x0300020000000064 = .error .reservedField ∧
    decodeHost 0x0400000100000000 = .error .reservedField ∧ decodeHost 0x0000000000000000 = .error .reservedOpcode ∧
    decodeHost 0x0900000000000000 = .error .reservedOpcode ∧ decodeHost 0x1600000000000000 = .error .reservedOpcode ∧
    decodeHost 0xFF00000000000000 = .error .reservedOpcode := by decide

/-- Bytes that are no bus command (R120, R123, R197). -/
theorem test_decode_refuses_bus_bytes :
    decode (.bus []) = .error .busTruncated ∧ decode (.bus [0x51]) = .error .busTruncated ∧
    decode (.bus [0x51, 0x01, 0x18]) = .error .busTruncated ∧ decode (.bus [0x51, 0x10, 0x18]) = .error .reservedCountBits ∧
    decode (.bus [0xFC, 0x00]) = .error .busTrailing ∧ decode (.bus [0xFF]) = .error .unknownBusCommand := by decide

/-- A table word of each width (log 12). -/
theorem test_decodeTableWord :
    decodeTableWord 64 0x1107A10000000000 = some (.wrreg 0x07 0xA1) ∧
    decodeTableWord 16 0x5203 = some (.wreg 2 3 [0, 0, 0, 0]) ∧ decodeTableWord 16 0x1003 = some (.rreg 0 3) ∧
    decodeTableWord 8 0xFC = some .sync ∧ decodeTableWord 8 0x02 = none ∧ decodeTableWord 16 0x5013 = none := by decide

/-- No two rows of the opcode table share a word. -/
theorem test_host_rows_disjoint :
    hostRows.Pairwise (fun r1 r2 => r1.pattern &&& (r1.mask &&& r2.mask) ≠ r2.pattern &&& (r1.mask &&& r2.mask)) := by decide
theorem test_bus_rows_disjoint :
    busRows.Pairwise (fun r1 r2 => r1.pattern &&& (r1.mask &&& r2.mask) ≠ r2.pattern &&& (r1.mask &&& r2.mask)) := by decide

/-- Every bus row is told by the first byte of the command it stands for (R123). -/
theorem test_first_byte_is_in_its_row :
    regCommandByte Config.cmdWreg 0xA &&& 0xF0 = 0x50 ∧ regCommandByte Config.cmdRreg 0xA &&& 0xF0 = 0x10 := by decide

/-- `withFetchWord` makes the next step run the row's instruction: `RDREG sel=0x0A` after construction reads `0xFF` (R270). -/
theorem test_withFetchWord_runs_next :
    (nextOf (step (State.reset.withFetchWord 64 0x100A000000000000))).map (·.results) = some [0x00000000FF] := by decide

/-! ## Host operations -/

/-- The example of R170. -/
theorem test_beginReset_controlPin_mid_capture :
    (nextOf (exec .beginReset { capturing none' with curMux := 1, nextMux := 2, newData := 0 })).map
      (fun t => (t.phase, t.curMux, t.nextMux, t.newData, t.trace)) =
    some (.resetting, 0xFF, 2, 0, [.op 0x0100000000000000, .pin .rst .low, .delay .resetPulse, .pin .rst .high, .busBegin, .ret .ok 0]) :=
  by decide

/-- spec/95 section 2.3, `CLOCK_PIN`: `KPR` and `BEGIN`. -/
theorem test_beginReset_clockPin :
    traceOf .beginReset { idle none' with params := params 3 .clockPin } =
    some [.op 0x0100000000000000, .busEnd, .pin .cs .high, .pin .sclk .high, .delay .t12, .pin .sclk .low, .delay .t13,
      .pin .sclk .high, .delay .t14, .pin .sclk .low, .delay .t13, .pin .sclk .high, .delay .t15, .busBegin, .ret .ok 0] := by decide

/-- The example of R213: the operation sends `50 03 04 08 00 A1`. -/
theorem test_beginWriteSettings_sends_settings :
    (nextOf (exec (.beginWriteSettings 6) (idle readyAtOnce))).map (fun t => (t.phase, t.trace)) =
    some (.writingSettings, [.op 0x0200000000000006, .now 4, .drdy .low, .acq, .pin .cs .low, .tx 0x50, .tx 0x03, .tx 0x04, .tx 0x08,
      .tx 0x00, .tx 0xA1, .delay .preRelease, .pin .cs .high, .delay .t10, .rel, .ret .ok 0]) := by decide

/-- spec/95 section 2.5: 6 >= 6 under `GE`, code 2, no bus traffic. -/
theorem test_beginWriteSettings_timeout :
    (nextOf (exec (.beginWriteSettings 6) (idle tooLate))).map (fun t => (t.phase, t.trace)) =
    some (.idle, [.op 0x0200000000000006, .now 4, .drdy .high, .now 10, .ret .notReadyToWriteSettings 0]) := by decide

/-- The example of R215: `34 08 20 A1` differs in the control register, code 1. -/
theorem test_readSettings_out_of_sync :
    resultsOf (.readSettings 0 6) (idle (draws [.readyLine] [.low] [4] [0x34, 0x08, 0x20, 0xA1])) = some [0x0100000000] := by decide

/-- spec/95 section 2.5, adoption with `NEXT_MUX = 1`: entry 0 is overwritten, entry 1 is not. -/
theorem test_readSettings_adopts :
    (nextOf (exec (.readSettings 1 6)
      { idle (draws [.readyLine] [.low] [4] [0x3E, 0x28, 0x7F, 0x92]) with nextMux := 1 })).map (fun t => (t.cfg, t.chan, t.phase)) =
    some (⟨1, 1, 1, 3, 3, 7, 0x92⟩, [0x28, 0x18, 0x28], .idle) := by decide

/-- spec/95 section 2.6: the cursor wraps modulo `N`, and the first step reads nothing. -/
theorem test_beginCapture_wraps :
    (nextOf (exec (.beginCapture 10) { idle (draws [.readyLine] [.low] [0] []) with nextMux := 2 })).map
      (fun t => (t.phase, t.curMux, t.nextMux, t.trace)) =
    some (.capturing, 2, 0, [.op 0x040000000000000A, .now 0, .drdy .low, .acq, .pin .cs .low, .tx 0x51, .tx 0x00, .tx 0x28,
      .delay .t11Short, .tx 0xFC, .delay .t11Long, .tx 0x00, .delay .preRelease, .pin .cs .high, .delay .t10, .rel, .ret .ok 0]) :=
  by decide

/-- spec/95 section 2.6: code 7 and nothing else. -/
theorem test_beginCapture_timeout :
    traceOf (.beginCapture 2) (idle (draws [.readyLine, .clock] [.high] [0, 2] [])) =
    some [.op 0x0400000000000002, .now 0, .drdy .high, .now 2, .ret .notReadyToBeginCapture 0] := by decide

/-- spec/95 section 2.6: a step with no sample. -/
theorem test_continueCapture_steps :
    (nextOf (exec .continueCapture { capturing (draws [] [] [] [0x00, 0x00, 0x01]) with curMux := 1, nextMux := 2 })).map
      (fun t => (t.curMux, t.nextMux, t.result, t.wr, t.newData)) = some (2, 0, [0, 1, 0], [false, true, false], 1) := by decide

/-- spec/95 section 2.6: refused in `Idle`, with no result word. -/
theorem test_continueCapture_refused_when_idle :
    (nextOf (exec .continueCapture (idle none'))).map (fun t => (t.refused, t.trace, t.results)) =
    some (true, [.op 0x0500000000000000], []) := by decide

/-- spec/95 section 2.6. -/
theorem test_endCapture_capturing :
    (nextOf (exec .endCapture { capturing none' with curMux := 2, nextMux := 0 })).map (fun t => (t.phase, t.curMux)) =
    some (.finishingCapture, 2) := by decide

/-- spec/95 example X6: code 8 in `Idle`. -/
theorem test_endCapture_idle :
    (nextOf (exec .endCapture (idle none'))).map (fun t => (t.phase, t.results)) = some (.idle, [0x0800000000]) := by decide

/-- spec/95 section 2.6: `START(18) READ(00,00,2A)`, the start before the read (R234). -/
theorem test_update_capturing_low :
    (nextOf (exec .update (capturing (draws [] [.low] [] [0x00, 0x00, 0x2A])))).map
      (fun t => (t.curMux, t.nextMux, t.result, t.newData, t.trace)) =
    some (1, 2, [42, 0, 0], 0, [.op 0x0700000000000000, .drdy .low, .acq, .pin .cs .low, .tx 0x51, .tx 0x00, .tx 0x18, .delay .t11Short,
      .tx 0xFC, .delay .t11Long, .tx 0x00, .tx 0x01, .delay .t6, .xfer 0x5A 0x00, .xfer 0x5A 0x00, .xfer 0x5A 0x2A,
      .delay .preRelease, .pin .cs .high, .delay .t10, .rel, .ret .ok 0]) := by decide

/-- spec/95 section 2.6: the drain step reads and starts nothing. -/
theorem test_update_drains :
    (nextOf (exec .update (finishing (draws [] [.low] [] [0xFF, 0xFF, 0xFF])))).map
      (fun t => (t.phase, t.curMux, t.nextMux, t.result, t.newData)) = some (.idle, 0xFF, 0, [0, 0, 0xFFFFFFFF], 2) := by decide

/-- spec/95 program P4, line 1: the whole composite, code 0. -/
theorem test_blockingInit_succeeds :
    (nextOf (exec (.blockingInit 1000)
      { built with env := draws [.readyLine, .readyLine] [.high, .low, .low, .low, .low] [0, 1, 1, 0, 38, 0] [0x34, 0x08, 0x00, 0xA1] })).map
      (fun t => (t.phase, t.results, clockReadings t.trace, sentBytes t.trace)) =
    some (.idle, [0x0000000000], [0, 1, 2, 2, 40, 40], [0x50, 0x03, 0x04, 0x08, 0x00, 0xA1, 0x10, 0x03]) :=
  by decide

/-- spec/95 section 2.7, fourth row: the deadline passes after the settings write, code 6. -/
theorem test_blockingInit_timeout_writing :
    (nextOf (exec (.blockingInit 10) { built with env := draws [.readyLine] [.low, .low, .high] [0, 1, 0, 9] [] })).map
      (fun t => (t.phase, t.results, clockReadings t.trace)) = some (.writingSettings, [0x0600000000], [0, 1, 1, 10]) := by decide

/-! ## Accessors -/

/-- spec/95 section 2.8: the cursor at construction. -/
theorem test_rdreg_sentinel : resultsOf (.rdreg 0x0A) built = some [0x00000000FF] := by decide

/-- spec/95 section 2.1: a reserved selector is refused. -/
theorem test_rdreg_refuses_reserved : (nextOf (exec (.rdreg 0x0D) built)).map (fun t => (t.refused, t.results)) = some (true, []) := by
  decide

/-- The example of R271. -/
theorem test_wrreg_drate : (nextOf (exec (.wrreg 0x07 0x92) built)).map (fun t => (t.cfg.drate, t.cfg.pga)) = some (0x92, 0) := by decide

/-- The example of R271: too wide a value is refused, not truncated. -/
theorem test_wrreg_refuses_wide :
    (nextOf (exec (.wrreg 0x06 8) built)).map (fun t => (t.refused, t.cfg.pga)) = some (true, 0) := by decide

/-- The example of R272. -/
theorem test_rdchan_entry : resultsOf (.rdchan 1) built = some [0x0000000018] := by decide

/-- R272: an index from `N` on is refused. -/
theorem test_rdchan_refuses_n : (nextOf (exec (.rdchan 3) built)).map (fun t => (t.refused, t.results)) = some (true, []) := by decide

/-- The example of R273. -/
theorem test_wrchan_entry : (nextOf (exec (.wrchan 1 0x28) built)).map (·.chan) = some [0x08, 0x28, 0x28] := by decide

/-- R273: an index from `N` on is refused. -/
theorem test_wrchan_refuses_n : (nextOf (exec (.wrchan 3 0x28) built)).map (fun t => (t.refused, t.chan)) =
    some (true, [0x08, 0x18, 0x28]) := by decide

/-- spec/95 section 2.8. -/
theorem test_rdres_negative :
    resultsOf (.rdres 0) { built with result := [-256, 0, 0], wr := [true, false, false] } = some [0x00FFFFFF00] := by decide

/-- spec/95 section 2.8: an unwritten slot sets the fault mark. -/
theorem test_rdres_unwritten :
    (nextOf (exec (.rdres 1) { built with wr := [true, false, false] })).map (fun t => (t.faulted, t.refused, t.results)) =
    some (true, false, []) := by decide

/-- spec/95 section 2.8: read and clear. -/
theorem test_takeNewData_clears :
    (nextOf (exec .takeNewData { built with newData := 1 })).map (fun t => (t.newData, t.results)) = some (0xFF, [0x0000000001]) := by
  decide

/-! ## Bus commands -/

/-- The example of R192. -/
theorem test_wreg_bytes : traceOf (.wreg 1 0 [0x18]) built = some [.tx 0x51, .tx 0x00, .tx 0x18] := by decide

/-- The example of R193 with the bytes of spec/95 section 2.4. -/
theorem test_rreg_bytes :
    traceOf (.rreg 0 3) { built with env := draws [] [] [] [0x31, 0x01, 0x20, 0xF0] } =
    some [.tx 0x10, .tx 0x03, .delay .t6, .xfer 0x5A 0x31, .xfer 0x5A 0x01, .xfer 0x5A 0x20, .xfer 0x5A 0xF0] := by decide

/-- The example of R194. -/
theorem test_sync_bytes : traceOf .sync built = some [.tx 0xFC, .delay .t11Long] := by decide

/-- The example of R195. -/
theorem test_wakeup_bytes : traceOf .wakeup built = some [.tx 0x00] := by decide

/-- The example of R196. -/
theorem test_rdata_bytes :
    traceOf .rdata { built with env := draws [] [] [] [0x12, 0x34, 0x56] } =
    some [.tx 0x01, .delay .t6, .xfer 0x5A 0x12, .xfer 0x5A 0x34, .xfer 0x5A 0x56] := by decide

/-! ## Shared operations -/

/-- spec/95 example X1 and section 2.4. -/
theorem test_decodeSample :
    decodeSample 0x7F 0xFF 0xFF = 0x007FFFFF ∧ decodeSample 0x80 0x00 0x00 = 0xFF800000 ∧ decodeSample 0xFF 0xFF 0xFF = 0xFFFFFFFF ∧
    decodeSample 0x80 0x00 0x01 = 0xFF800001 ∧ decodeSample 0x12 0x34 0x56 = 0x00123456 := by decide

/-- spec/95 section 2.5. -/
theorem test_settingsBytes :
    ({ built with cfg := ⟨1, 1, 1, 3, 3, 7, 0xFF⟩, chan := [0xFF, 0, 0] } : State).settingsBlock = ⟨0x0E, 0xFF, 0x7F, 0xFF⟩ ∧
    ({ built with cfg := ⟨0, 0, 1, 1, 2, 5, 0x82⟩, chan := [0x23, 0, 0] } : State).settingsBlock = ⟨0x02, 0x23, 0x35, 0x82⟩ := by decide

/-- spec/95 section 2.2, second and third rows: at 105 `GE` ends the wait and `GT` goes on to 106. -/
theorem test_wait_comparison :
    clockReadings (readyWait 5 (idle (draws [.readyLine, .clock, .readyLine, .clock] [.high, .high] [100, 5, 1] []))).st.trace = [100, 105] ∧
    clockReadings (readyWait 5 { idle (draws [.readyLine, .clock, .readyLine, .clock] [.high, .high] [100, 5, 1] []) with
      params := { params 3 .controlPin with waitCmp := .gt } }).st.trace = [100, 105, 106] := by decide

/-- The examples of R131. -/
theorem test_assembler :
    assembleLine "WRREG sel=0x07 val=0xA1" = some (some (.op (.wrreg 0x07 0xA1))) ∧
    assembleLine "READ_SETTINGS update_local=1 timeout=100" = some (some (.op (.readSettings 1 100))) ∧
    assembleLine "; text" = some none ∧ assembleLine "POLL_IDLE limit=3" = some (some (.pollIdle 3)) := by decide

/-- R35, R125, R128, R129, R130, R358: one entry of each table. -/
theorem test_device_codes :
    gainFactor 7 = 64 ∧ clockOutDivisor 3 = some 4 ∧ sensorDetectTenths 2 = 20 ∧ samplesPerTenSeconds 0xA1 = some 10000 ∧
    samplesPerTenSeconds 0x03 = some 25 ∧ inputPair 0x18 = (.ain 1, .aincom) ∧ powerOnBlock 3 = ⟨0x31, 0x01, 0x20, 0xF0⟩ ∧
    nominalMicroseconds .t14 = some 85 := by decide

/-! ## Witnesses: encoding and the step -/

theorem test_witness_DecodeInvertsEncode :
    (Instr.wreg 15 15 (List.replicate 16 0x18)).wellFormed = true ∧ (Instr.wreg 1 0 [0x18]).wellFormed = true := by decide

theorem test_witness_EncodeInvertsDecode :
    (∃ i, decode (.host 0x0300010000000064) = .ok i) ∧ (∃ i, decode (.bus [0x51, 0x00, 0x18]) = .ok i) :=
  ⟨⟨.readSettings 1 100, by decide⟩, ⟨.wreg 1 0 [0x18], by decide⟩⟩

theorem test_witness_BusCommandReadBackBeforeAnyBytes :
    (Instr.wreg 0 3 [4, 8, 0, 0xA1]).wellFormed = true ∧ encode (.wreg 0 3 [4, 8, 0, 0xA1]) = .bus [0x50, 0x03, 4, 8, 0, 0xA1] := by decide

/-- A machine with one command at its port. -/
def waiting (c : Command) : State := { idle none' with commands := [c] }

theorem test_witness_StepRunsTheDecodedInstruction :
    (waiting (.host 0x0700000000000000)).unmarked ∧
    (waiting (.host 0x0700000000000000)).commands = .host 0x0700000000000000 :: [] ∧ decode (.host 0x0700000000000000) = .ok .update := by
  unfold State.unmarked; decide

theorem test_witness_NothingAdvancesWithoutACommand : State.reset.unmarked ∧ State.reset.commands = [] := by
  unfold State.unmarked; decide

/-- A reserved opcode, a reserved field, and an operand refused only in the state. -/
theorem test_witness_RefusedWordOnlySetsTheMark :
    (waiting (.host 0x1600000000000000)).unmarked ∧
    (∃ e, decodeHost 0x1600000000000000 = .error e) ∧ (∃ e, decodeHost 0x0100000000000001 = .error e) ∧
    (decodeHost 0x1203000000000000 = .ok (.rdchan 3) ∧ (Instr.rdchan 3).refusedIn (waiting (.host 0x1203000000000000))) ∧
    (decodeHost 0x0500000000000000 = .ok .continueCapture ∧
      Instr.continueCapture.refusedIn (waiting (.host 0x0500000000000000))) :=
  ⟨by unfold State.unmarked; decide, ⟨.reservedOpcode, by decide⟩, ⟨.reservedField, by decide⟩,
    ⟨by decide, by unfold Instr.refusedIn; decide⟩, ⟨by decide, by unfold Instr.refusedIn; decide⟩⟩

/-- A mark set by an operand, one set by an unwritten slot, and an operation run with both marks set. -/
theorem test_witness_MarksAreSetExactlyAndNeverCleared :
    (∃ t, exec (.wrchan 3 0) built = .next t ∧ t.refused = true ∧ t.faulted = false) ∧
    (∃ t, exec (.rdres 2) built = .next t ∧ t.refused = false ∧ t.faulted = true) ∧
    (∃ t, exec .takeNewData { built with refused := true, faulted := true } = .next t ∧ t.refused = true ∧ t.faulted = true) :=
  ⟨⟨_, rfl, rfl, rfl⟩, ⟨_, rfl, rfl, rfl⟩, ⟨_, rfl, rfl, rfl⟩⟩

theorem test_witness_MarkedMachineTakesNoStep :
    ({ idle none' with refused := true } : State).refused = true ∧
    (({ idle none' with faulted := true } : State).refused = false ∧ ({ idle none' with faulted := true } : State).faulted = true) := by
  decide

/-- The last channel, written. -/
theorem test_witness_OperationFrame :
    let s : State := { built with wr := [false, false, true] }
    encode (.rdres 2) = .host 0x1402000000000000 ∧ ¬ (Instr.rdres 2).refusedIn s ∧ ¬ (Instr.rdres 2).readsUnwritten s ∧
    ∃ t, exec (.rdres 2) s = .next t :=
  ⟨by decide, by unfold Instr.refusedIn; decide, by unfold Instr.readsUnwritten; decide, ⟨_, rfl⟩⟩

/-! ## Witnesses: invariants and whole-machine rules -/

/-- The smallest and the largest channel count (R8). -/
theorem test_witness_ConstructionMeetsTheInvariant :
    (1 ≤ (params 1 .controlPin).n.toNat ∧ [(0x08 : Byte)].length = (params 1 .controlPin).n.toNat) ∧
    (1 ≤ (params 255 .none).n.toNat ∧ (List.replicate 255 (0x08 : Byte)).length = (params 255 .none).n.toNat) :=
  ⟨by decide, by decide, List.length_replicate⟩

theorem zero_samples (n : Nat) : ∀ v ∈ List.replicate n (0 : BitVec 32), -(2 ^ 23 : Int) ≤ v.toInt ∧ v.toInt < (2 ^ 23 : Int) := by
  intro v hv
  rw [List.eq_of_mem_replicate hv, show (0 : BitVec 32).toInt = 0 from rfl]
  norm_num

/-- The invariant does not speak of the inputs. -/
theorem inv_withEnv {s : State} (e : Env) (h : s.Inv) : ({ s with env := e } : State).Inv :=
  ⟨h.channels, h.tables, h.nextValid, h.curValid, h.newValid, h.inFlight, h.levels, h.busReady, h.samples, h.newWritten⟩

theorem idle_inv (e : Env) : (idle e).Inv := inv_withEnv (s := idle none') e (by constructor <;> first | exact zero_samples _ | decide)
theorem capturing_inv (e : Env) : (capturing e).Inv := inv_withEnv (s := capturing none') e (by constructor <;> first | exact zero_samples _ | decide)
theorem finishing_inv (e : Env) : (finishing e).Inv := inv_withEnv (s := finishing none') e (by constructor <;> first | exact zero_samples _ | decide)

/-- A step that takes a pipelined step: the premises of the three statements about `step s = .next t`. -/
theorem test_witness_EveryStepKeepsTheInvariant :
    let s : State := { capturing (draws [] [.low] [] [0x80, 0x00, 0x00]) with commands := [.host 0x0700000000000000] }
    s.Inv ∧ ∃ t, step s = .next t ∧ t.trace ≠ s.trace ∧ t.commands = [] := by
  refine ⟨by constructor <;> first | exact zero_samples _ | decide, _, rfl, by decide, rfl⟩

theorem test_witness_ConstantsStandAndTheTraceGrows :
    ∃ t, step (waiting (.bus [0x01])) = .next t ∧ t.trace.length = 5 := ⟨_, rfl, by decide⟩

theorem test_witness_ClockReadingsNeverDecrease :
    ∃ t, step { idle tooLate with commands := [.host 0x0200000000000006] } = .next t ∧ clockReadings t.trace = [4, 10] := ⟨_, rfl, by decide⟩

theorem test_witness_StateChangesOnlyByTheTable :
    (∃ t, exec .endCapture (capturing none') = .next t ∧ t.phase ≠ (capturing none').phase) ∧
    (∃ t, exec .continueCapture (finishing none') = .next t ∧ t.phase ≠ (finishing none').phase) := by
  refine ⟨⟨_, rfl, by decide⟩, ⟨_, rfl, by decide⟩⟩

theorem test_witness_UninitializedIsNeverReentered :
    (∃ t, exec .update (idle none') = .next t ∧ (idle none').phase ≠ .uninitialized) ∧
    (∃ t, exec .beginReset built = .next t ∧ built.phase = .uninitialized ∧ t.phase ≠ .uninitialized) := by
  refine ⟨⟨_, rfl, by decide⟩, ⟨_, rfl, by decide, by decide⟩⟩

/-- Each element changes somewhere, and a capture begins from a state with the invariant. -/
theorem test_witness_OnlyTheListedOperationsWrite :
    (∃ t, exec .beginReset built = .next t ∧ t.phase ≠ built.phase) ∧
    ((idle readyAtOnce).Inv ∧ ∃ t, exec (.beginCapture 6) (idle readyAtOnce) = .next t ∧ t.curMux ≠ (idle readyAtOnce).curMux) ∧
    (∃ t, exec (.wrreg 6 5) built = .next t ∧ t.cfg ≠ built.cfg) ∧
    (∃ t, exec (.wrchan 2 0x38) built = .next t ∧ t.chan ≠ built.chan) ∧
    (∃ t, exec (.wrreg 8 1) built = .next t ∧ t.oos ≠ built.oos) ∧
    (∃ t, exec .continueCapture (capturing none') = .next t ∧ t.nextMux ≠ (capturing none').nextMux ∧ t.wr ≠ (capturing none').wr ∧
      t.newData ≠ (capturing none').newData) := by
  refine ⟨⟨_, rfl, by decide⟩, ⟨idle_inv _, _, rfl, by decide⟩, ⟨_, rfl, by decide⟩, ⟨_, rfl, by decide⟩, ⟨_, rfl, by decide⟩,
    ⟨_, rfl, by decide, by decide, by decide⟩⟩

/-- Also the premises of `OnlyTheFiveCommandsAreSent`. -/
theorem test_witness_EveryOperationKeepsTheBracketDiscipline :
    Instr.continueCapture.isHost = true ∧ ∃ t, exec .continueCapture (capturing none') = .next t ∧ sentBytes t.trace ≠ [] :=
  ⟨rfl, _, rfl, by decide⟩

theorem test_witness_NoBusTrafficWhileResetting :
    Instr.update.isHost = true ∧ (∀ timeout, Instr.update ≠ .blockingInit timeout) ∧
    ∃ t, exec .update { idle (draws [] [.low] [] []) with phase := .resetting } = .next t ∧ t.phase = .idle :=
  ⟨rfl, by simp, _, rfl, rfl⟩

/-! ## Witnesses: reset and waits -/

/-- Both strategies, in a capture. -/
theorem test_witness_ElementsAfterConstructionAndReset :
    let s : State := { capturing none' with params := params 3 .clockPin }
    (s.params.resetStrategy ≠ .none ∧ s.csLvl = .high ∧ s.syncLvl = .high ∧ s.busHeld = false) ∧
    (capturing none').params.resetStrategy ≠ .none ∧ (capturing none').csLvl = .high ∧ (capturing none').syncLvl = .high ∧
    (capturing none').busHeld = false := by decide

theorem test_witness_BeginResetByStrategy :
    ({ built with params := params 3 .none } : State).params.resetStrategy = .none ∧ built.params.resetStrategy = .controlPin ∧
    ({ built with params := params 3 .clockPin } : State).params.resetStrategy = .clockPin := by decide

theorem test_witness_PreconditionFailureIsANoOp :
    ({ built with params := params 3 .none } : State).params.resetStrategy = .none ∧ built.phase ≠ .idle ∧ built.phase ≠ .capturing := by
  decide

/-- Samples of both kinds, a reading at the deadline minus one, then each ending (spec/95 section 2.2). -/
theorem test_witness_WaitAdmitsEverySampleOrder :
    (∀ e ∈ [Event.now 104, .drdy .high], e = .drdy .high ∨ ∃ t, e = .now t ∧ expired (idle none').params.waitCmp (t - 100) 5 = false) ∧
    (Event.now 105 = .drdy .low ∨ ∃ t, Event.now 105 = .now t ∧ expired (idle none').params.waitCmp (t - 100) 5 = true) ∧
    List.IsChain (· ≤ ·) ((idle none').env.now :: 100 :: clockReadings ([.now 104, .drdy .high] ++ [.now 105])) ∧
    (Event.drdy .low = .drdy .low ∨ ∃ t, Event.drdy .low = .now t ∧ expired (idle none').params.waitCmp (t - 100) 5 = true) ∧
    List.IsChain (· ≤ ·) ((idle none').env.now :: 100 :: clockReadings ([.now 104, .drdy .high] ++ [.drdy .low])) := by
  refine ⟨?_, .inr ⟨105, rfl, by decide⟩, by decide, .inl rfl, by decide⟩
  intro e he
  simp only [List.mem_cons, List.not_mem_nil, or_false] at he
  rcases he with rfl | rfl
  · exact .inr ⟨104, rfl, by decide⟩
  · exact .inl rfl

theorem test_witness_TimedOutWaitLeavesTheStateUnchanged :
    encode (.readSettings 0 6) = .host 0x0300000000000006 ∧ (idle tooLate).phase = .idle ∧ (idle tooLate).env.fair = true ∧
    (waitOf 0x0300000000000006 6 (idle tooLate)).ready = false ∧ encode (.readSettings 1 6) = .host 0x0300010000000006 ∧
    (waitOf 0x0300010000000006 6 (idle tooLate)).ready = false ∧ encode (.beginWriteSettings 6) = .host 0x0200000000000006 ∧
    (waitOf 0x0200000000000006 6 (idle tooLate)).ready = false ∧ encode (.beginCapture 6) = .host 0x0400000000000006 ∧
    (waitOf 0x0400000000000006 6 (idle tooLate)).ready = false := by decide

/-! An environment that is not fair and lets a wait run on (R145): the line stays `HIGH` and the clock stands for as many rounds as the
wait may take. -/

/-- The line stays `HIGH` and the clock stands for `k` more samples of each. -/
def standing (k : Nat) : Env := { none' with fair := false, ready := List.replicate k .high, ticks := List.replicate (k + 1) 0 }

/-- A clock that stands does not end a wait of 1 ms either. -/
theorem waitClock_standing (t0 : Nat) : ∀ (pending : Nat) (s : State),
    s.params.waitCmp = .ge → s.env.now = t0 → s.env.ticks = List.replicate pending 0 →
    (waitClock t0 1 pending s).ready = false ∧ (waitClock t0 1 pending s).byFairness = true := by
  intro pending
  induction pending with
  | zero => intro s hc hn _; exact ⟨rfl, by simp [waitClock, waitOut, deadline, hc, hn]⟩
  | succ pending ih =>
    intro s hc hn ht
    rw [List.replicate_succ] at ht
    have hle : expired s.params.waitCmp (max s.env.now 0 + 0 - t0) 1 = false := by simp [hc, hn, expired]
    simp only [waitClock, State.nowMs, State.nowFrom, drawn, ht, List.headD_cons, State.log, hle, Bool.false_eq_true, if_false]
    exact ih _ (by simpa using hc) (by simp [hn]) (by simp)

/-- In such an environment no sample qualifies, whatever order they are taken in. -/
theorem waitLoop_standing (t0 : Nat) : ∀ (fuel a b : Nat) (s : State),
    s.params.waitCmp = .ge → s.env.now = t0 → s.env.ready = List.replicate (fuel + a) .high →
    s.env.ticks = List.replicate (fuel + b) 0 →
    (waitLoop t0 1 fuel s).ready = false ∧ (waitLoop t0 1 fuel s).byFairness = true := by
  intro fuel
  induction fuel with
  | zero =>
    intro a b s hc hn _ ht
    have hl : s.env.ticks.length = b := by simp [ht]
    rw [waitLoop, hl]
    exact waitClock_standing t0 b s hc hn (by simpa using ht)
  | succ fuel ih =>
    intro a b s hc hn hr ht
    rw [show fuel + 1 + a = fuel + a + 1 by omega, List.replicate_succ] at hr
    rw [show fuel + 1 + b = fuel + b + 1 by omega, List.replicate_succ] at ht
    simp only [waitLoop, State.chooseSample]
    cases drawn s.env.order (Config.freeSample s.env.count) with
    | readyLine =>
      simp only [State.drdy, drawn, hr, List.headD_cons]
      refine ih a (b + 1) _ (by simpa [State.log] using hc) (by simpa [State.log] using hn) (by simp) ?_
      simp [ht, List.replicate_succ, ← Nat.add_assoc]
    | clock =>
      simp only [State.nowMs, State.nowFrom, drawn, ht, List.headD_cons]
      have hle : expired s.params.waitCmp (max s.env.now 0 + 0 - t0) 1 = false := by simp [hc, hn, expired]
      simp only [State.log, hle, Bool.false_eq_true, if_false]
      refine ih (a + 1) b _ (by simpa using hc) (by simp [hn]) ?_ (by simp)
      simp [hr, List.replicate_succ, ← Nat.add_assoc]

/-- `Idle` in an environment in which a wait of 1 ms does not end. -/
def stuck : State := idle (standing (Config.freeLength 1))

theorem stuck_wait (w : CommandWord) : (waitOf w 1 stuck).ready = false ∧ (waitOf w 1 stuck).byFairness = true := by
  refine waitLoop_standing 0 (Config.freeLength 1) 0 0 _ rfl rfl (by rfl) (by rfl)

/-! ## Witnesses: configuration sync -/

/-- The clauses of `BeginWriteSettingsResult`, `ReadSettingsResult` and `BeginCaptureResult` that turn on the wait, and the premises of
`UnfairWaitIsStuck`, for the word of any of the operations. -/
theorem test_witness_waits_of_the_three_operations (w : CommandWord) :
    built.phase ≠ .idle ∧
    ((idle readyAtOnce).phase = .idle ∧ (waitOf w 6 (idle readyAtOnce)).ready = true) ∧
    ((idle tooLate).phase = .idle ∧ (waitOf w 6 (idle tooLate)).ready = false ∧ (waitOf w 6 (idle tooLate)).byFairness = false) ∧
    (stuck.phase = .idle ∧ (waitOf w 1 stuck).ready = false ∧ stuck.env.fair = false ∧ (waitOf w 1 stuck).byFairness = true) :=
  ⟨by decide, ⟨rfl, rfl⟩, ⟨rfl, rfl, rfl⟩, rfl, (stuck_wait w).1, rfl, (stuck_wait w).2⟩

/-- The comparing clauses: the masked bits agree, or do not. -/
theorem test_witness_ReadSettingsResult :
    (waitOf (hostWord 0x03 0 0 6) 6 (idle (draws [.readyLine] [.low] [4] [0xF5, 0x08, 0x80, 0xA1]))).st.env.nextBlock.masked =
      (idle none').settingsBlock.masked ∧
    (waitOf (hostWord 0x03 0 0 6) 6 (idle (draws [.readyLine] [.low] [4] [0x06, 0x08, 0x00, 0xA1]))).st.env.nextBlock.masked ≠
      (idle none').settingsBlock.masked := by decide

/-- A write, its completion by one `UPDATE`, and the echo `34 08 00 A1` (spec/95 example X5). -/
theorem test_witness_SettingsRoundTrip :
    let s := idle (draws [.readyLine, .readyLine] [.low, .low, .low] [4, 0] [0x34, 0x08, 0x00, 0xA1])
    ∃ t u, exec (.beginWriteSettings 6) s = .next t ∧ t.phase = .writingSettings ∧ UpdateRun t u ∧ u.phase = .idle ∧
      (waitOf (hostWord 0x03 0 0 6) 6 u).ready = true ∧
      (waitOf (hostWord 0x03 0 0 6) 6 u).st.env.nextBlock.masked = s.settingsBlock.masked :=
  ⟨_, _, rfl, rfl, .step rfl (.refl _), rfl, rfl, by decide⟩

theorem test_witness_AdoptThenCompare :
    let s := idle (draws [.readyLine, .readyLine] [.low, .low] [4, 0] [0x31, 0x01, 0x20, 0xF0, 0x31, 0x01, 0x20, 0xF0])
    s.Inv ∧ s.phase = .idle ∧ (waitOf (hostWord 0x03 0 1 6) 6 s).ready = true ∧ s.nextMux = 0 ∧
    ∃ t, exec (.readSettings 1 6) s = .next t ∧ (waitOf (hostWord 0x03 0 0 6) 6 t).ready = true ∧
      (waitOf (hostWord 0x03 0 0 6) 6 t).st.env.nextBlock = (waitOf (hostWord 0x03 0 1 6) 6 s).st.env.nextBlock :=
  ⟨idle_inv _, rfl, rfl, rfl, _, rfl, rfl, by decide⟩

/-! ## Witnesses: capture -/

theorem test_witness_BeginCaptureResult : (idle readyAtOnce).Inv ∧ (idle readyAtOnce).phase = .idle ∧
    (waitOf (hostWord 0x04 0 0 6) 6 (idle readyAtOnce)).ready = true := ⟨idle_inv _, rfl, rfl⟩

theorem test_witness_ContinueCaptureTakesOneStep :
    ((capturing none').Inv ∧ (capturing none').phase = .capturing) ∧ ((finishing none').Inv ∧ (finishing none').phase = .finishingCapture) ∧
    ((idle none').phase ≠ .capturing ∧ (idle none').phase ≠ .finishingCapture) :=
  ⟨⟨capturing_inv _, rfl⟩, ⟨finishing_inv _, rfl⟩, by decide⟩

theorem test_witness_UpdateByState :
    let high := draws [] [.high] [] []
    let low := draws [] [.low] [] []
    (built.phase = .uninitialized ∧ (idle none').phase = .idle) ∧
    ((capturing high).phase ≠ .uninitialized ∧ (capturing high).phase ≠ .idle ∧ ¬ (capturing high).env.nextReady = .low) ∧
    (({ idle low with phase := .writingSettings } : State).phase = .writingSettings ∧ (idle low).env.nextReady = .low) ∧
    ((capturing low).Inv ∧ (capturing low).phase = .capturing ∧ (capturing low).env.nextReady = .low) ∧
    ((finishing low).Inv ∧ (finishing low).phase = .finishingCapture ∧ (finishing low).env.nextReady = .low) :=
  ⟨by decide, by decide, by decide, ⟨capturing_inv _, rfl, rfl⟩, finishing_inv _, rfl, rfl⟩

theorem test_witness_EndCaptureMarksTheDrain : (capturing none').phase = .capturing ∧ (finishing none').phase ≠ .capturing := by decide

/-- One channel, so that two steps are `N + 1` (R249). -/
def single (e : Env) : State :=
  { State.construct (params 1 .controlPin) ⟨0, 1, 0, 0, 0, 0, 0xA1⟩ [0x08] 0 with phase := .idle, busOn := true, env := e }

/-- One step, a `HIGH` sample, a second step: also the premises of `EveryChannelIsRead`. -/
theorem test_witness_PipelineCyclesTheChannels :
    let s := single (draws [.readyLine] [.low, .high, .low] [4] [0, 0, 3])
    s.Inv ∧ (∃ t, CaptureRun s 1 t) ∧ (∃ t, CaptureRun s 2 t) ∧ s.params.n.toNat + 1 ≤ 2 ∧ (0 : BitVec 8) < s.params.n := by
  refine ⟨by constructor <;> first | exact zero_samples _ | decide, ⟨_, .begun 6 rfl rfl rfl⟩,
    ⟨_, .stepped (.passed (.rdreg 0x0A) (.waited (.begun 6 rfl rfl rfl) rfl rfl) rfl rfl) rfl rfl⟩, by decide, by decide⟩

/-- The drain that follows one step, by `UPDATE` on a `LOW` sample and by `CONTINUE_CAPTURE`. -/
theorem test_witness_PipelineCyclesTheChannels_drain :
    ∃ t u v w, CaptureRun (single (draws [.readyLine] [.low, .low] [4] [])) 1 t ∧ exec .endCapture t = .next u ∧
      u.env.nextReady = .low ∧ exec .update u = .next v ∧ exec .continueCapture u = .next w :=
  ⟨_, _, _, _, .begun 6 rfl rfl rfl, rfl, rfl, rfl, rfl⟩

theorem test_witness_BlockingInitOutcomes :
    built.env.fair = true ∧ built.params.resetStrategy ≠ .none ∧
    ({ built with params := params 3 .none } : State).params.resetStrategy = .none := by decide

/-- Which of the stages of `BlockingInitStages` succeed: the first polling loop, the settings wait, the second polling loop, the read
wait. -/
def initStages (timeout : BitVec 32) (s : State) : List Bool :=
  let begun := ({ s with trace := s.trace ++ [.op (hostWord 0x08 0 0 timeout)] } : State).nowMs
  let left (reading : Nat) : Nat := timeout.toNat - (reading - begun.1)
  let p1 := pollUntilIdle begun.1 timeout.toNat { begun.2 with
    trace := begun.2.trace ++ (controlPulseEvents ++ [.busBegin]), phase := .resetting, curMux := 0xFF, rstLvl := .high, busOn := true }
  let w1 := readyWait (left p1.st.nowMs.1) p1.st.nowMs.2
  let p2 := pollUntilIdle begun.1 timeout.toNat { w1.st with
    trace := w1.st.trace ++ writeBlockEvents s.settingsBlock, phase := .writingSettings, csLvl := .high, busHeld := false }
  let w2 := readyWait (left p2.st.nowMs.1) p2.st.nowMs.2
  [p1.ready, w1.ready, p2.ready, w2.ready]

/-- Each stage is the first to fail in a fair environment, and all succeed. -/
theorem test_witness_BlockingInitStages :
    built.params.resetStrategy ≠ .none ∧ ({ built with params := params 3 .none } : State).params.resetStrategy = .none ∧
    built.env.fair = true ∧
    (initStages 10 { built with env := draws [] [.high] [0, 10] [] })[0]? = some false ∧
    (initStages 10 { built with env := draws [.readyLine, .clock] [.low, .high] [0, 1, 0, 10] [] }).take 2 = [true, false] ∧
    (initStages 10 { built with env := draws [.readyLine] [.low, .low, .high] [0, 1, 0, 9] [] }).take 3 = [true, true, false] ∧
    initStages 10 { built with env := draws [.readyLine, .readyLine, .clock] [.low, .low, .low, .high] [0, 1, 0, 1, 0, 10] [] } =
      [true, true, true, false] ∧
    initStages 10 { built with env := draws [.readyLine, .readyLine] [.low, .low, .low, .low] [0, 1, 0, 1, 0] [] } =
      [true, true, true, true] := by decide

/-- A loop that ends in `Idle` after one round, in either state, and one that times out. -/
theorem test_witness_PollingLoopEnds :
    (pollUntilIdle 0 10 { idle (draws [] [.high, .low] [9, 0] []) with phase := .resetting }).ready = true ∧
    (pollUntilIdle 0 10 { idle (draws [] [.high, .low] [9, 0] []) with phase := .writingSettings }).ready = true ∧
    (pollUntilIdle 0 10 { idle (draws [] [.high, .high] [9, 1] []) with phase := .resetting }).ready = false := by decide

/-- A first sample of each level, in an environment that is not fair and has no clock advance pending. -/
theorem test_witness_ZeroBudgetCorners :
    built.params.resetStrategy ≠ .none ∧ built.params.waitCmp = .ge ∧
    ({ built with env := { draws [.readyLine] [.high] [] [] with fair := false } } : State).nowMs.2.env.nextReady = .high ∧
    ({ built with env := { draws [.readyLine] [.low] [] [] with fair := false } } : State).nowMs.2.env.nextReady = .low := by decide

/-! ## Witnesses: accessors -/

/-- The first and the last selector, and the first reserved one. -/
theorem test_witness_RdregReturnsTheElement :
    ([1, 2, 3, 4, 5, 6, 7, 8, 9, 10, 11, 12, 13] : List Nat)[(0x0C : BitVec 8).toNat]? = some 13 ∧ 13 ≤ (0x0D : BitVec 8).toNat := by decide

/-- The largest legal values, and one selector and value of each refused kind. -/
theorem test_witness_WrregWritesOneElement :
    ((1 : BitVec 8).toNat < 2 ∧ (3 : BitVec 8).toNat < 4 ∧ (7 : BitVec 8).toNat < 8) ∧
    (Instr.wrreg 0 0).refusedIn built ∧ (Instr.wrreg 9 0).refusedIn built ∧ (Instr.wrreg 1 2).refusedIn built ∧
    (Instr.wrreg 4 4).refusedIn built ∧ (Instr.wrreg 6 8).refusedIn built ∧ ¬ (Instr.wrreg 7 0xFF).refusedIn built := by
  simp [Instr.refusedIn]

/-- The last channel and the first index past it. -/
theorem test_witness_ChannelTableAccess :
    (idle none').Inv ∧ (2 : BitVec 8).toNat < (idle none').params.n.toNat ∧ (idle none').params.n.toNat ≤ (3 : BitVec 8).toNat :=
  ⟨idle_inv _, by decide, by decide⟩

theorem test_witness_ResultBufferRead :
    let s : State := { idle none' with wr := [false, false, true] }
    s.Inv ∧ (s.writtenAt 2 = true ∧ (2 : BitVec 8).toNat < s.params.n.toNat) ∧
    (s.writtenAt 1 = false ∧ (1 : BitVec 8).toNat < s.params.n.toNat ∧ s.refused = false) ∧ s.params.n.toNat ≤ (3 : BitVec 8).toNat :=
  ⟨by constructor <;> first | exact zero_samples _ | decide, by decide, by decide, by decide⟩

end Sys2Proof.Tests
end

/-! What every step keeps (spec/00_scope.md R9, spec/20_memory.md R73): the length of the channel table through each body, then the
constants, the trace and the result words through `exec` and `step`. -/

namespace Sys2Proof.Machine

/-! ## The channel table's length -/

theorem SameButInputs.chan_eq {s t : State} (h : SameButInputs s t) : t.chan = s.chan := by rw [h.1]

@[simp] theorem waitOut_chan (t0 timeout : Nat) (s : State) : (waitOut t0 timeout s).st.chan = s.chan :=
  (waitOut_sameButInputs t0 timeout s).chan_eq

@[simp] theorem readyWait_chan (timeout : Nat) (s : State) : (readyWait timeout s).st.chan = s.chan :=
  (readyWait_sameButInputs timeout s).chan_eq

@[simp] theorem pipelinedStep_chan (s : State) : s.pipelinedStep.chan = s.chan := by
  by_cases hp : s.phase = .capturing <;> by_cases hc : s.curMux = Config.sentinel
  · rw [pipelinedStep_first s hp hc]
  · rw [pipelinedStep_next s hp hc]
  · rw [pipelinedStep_drain_empty s hp hc]
  · rw [pipelinedStep_drain s hp hc]

@[simp] theorem update_chan (s : State) : s.update.chan = s.chan := by
  cases hp : s.phase with
  | uninitialized | idle => rw [update_noop s (by simp [hp])]
  | resetting | writingSettings => rw [update_sampling s (by simp [hp])]
  | capturing | finishingCapture => rw [update_stepping s (by simp [hp])]; split <;> simp

@[simp] theorem pollLoop_chan (t0 timeout fuel : Nat) (s : State) : (pollLoop t0 timeout fuel s).st.chan = s.chan := by
  induction fuel generalizing s with
  | zero => rw [pollLoop]; split <;> simp
  | succ fuel ih =>
    have hn : s.update.nowMs.2.chan = s.chan := (nowFrom_sameButInputs 0 s.update).chan_eq.trans (update_chan s)
    rw [pollLoop_succ]
    split
    · exact update_chan s
    · split
      · exact hn
      · exact (ih _).trans hn

@[simp] theorem setElement_chan (sel val : BitVec 8) (s : State) : (s.setElement sel val).chan = s.chan := by
  unfold State.setElement
  split <;> rfl

@[simp] theorem beginResetBody_chan (s : State) : (beginResetBody s).st.chan = s.chan := by
  unfold beginResetBody
  split
  · rfl
  · rw [controlPinReset_eq, rearm_eq]; rfl
  · rw [clockPinReset_eq, rearm_eq]; rfl

/-- A wait leaves the table to what follows it. -/
theorem waitThen_chan_length (timeout : Nat) (c : Code) (act : State → Reply) (s : State)
    (ha : ∀ t, (act t).st.chan.length = t.chan.length) : (waitThen timeout c act s).st.chan.length = s.chan.length := by
  cases hr : (readyWait timeout s).ready with
  | true => rw [waitThen_ready _ _ _ _ hr, ha, readyWait_chan]
  | false => rw [waitThen_timeout _ _ _ _ hr, readyWait_chan]

theorem beginWriteSettingsBody_chan_length (timeout : Nat) (s : State) :
    (beginWriteSettingsBody timeout s).st.chan.length = s.chan.length := by
  unfold beginWriteSettingsBody
  split
  · rfl
  · exact waitThen_chan_length _ _ _ _ fun t => by simp only [replyCode, writeBlock_eq, enter_chan]

/-- The adopting read writes entry 0 in place (R217). -/
theorem readAndSettle_chan_length (u : BitVec 1) (s : State) : (readAndSettle u s).st.chan.length = s.chan.length := by
  rw [readAndSettle_eq]
  split <;> simp [replyCode]

theorem readSettingsBody_chan_length (u : BitVec 1) (timeout : Nat) (s : State) :
    (readSettingsBody u timeout s).st.chan.length = s.chan.length := by
  unfold readSettingsBody
  split
  · rfl
  · exact waitThen_chan_length _ _ _ _ (readAndSettle_chan_length u)

theorem beginCaptureBody_chan_length (timeout : Nat) (s : State) :
    (beginCaptureBody timeout s).st.chan.length = s.chan.length := by
  unfold beginCaptureBody
  split
  · rfl
  · exact waitThen_chan_length _ _ _ _ fun t => by simp [replyCode]

theorem endCaptureBody_chan (s : State) : (endCaptureBody s).st.chan = s.chan := by
  unfold endCaptureBody
  split <;> rfl

theorem initRead_chan_length (t0 timeout : Nat) (s : State) : (initRead t0 timeout s).st.chan.length = s.chan.length :=
  readSettingsBody_chan_length 1 _ _

theorem initWriteAndRead_chan_length (t0 timeout : Nat) (s : State) :
    (initWriteAndRead t0 timeout s).st.chan.length = s.chan.length := by
  have hw := beginWriteSettingsBody_chan_length (s.remaining t0 timeout).1 (s.remaining t0 timeout).2
  have hs : (s.remaining t0 timeout).2.chan = s.chan := rfl
  rw [hs] at hw
  unfold initWriteAndRead
  simp only
  split
  · exact hw
  · split
    · rw [initRead_chan_length, pollUntilIdle, pollLoop_chan, hw]
    · rw [pollUntilIdle, pollLoop_chan, hw]

theorem blockingInitBody_chan_length (timeout : Nat) (s : State) :
    (blockingInitBody timeout s).st.chan.length = s.chan.length := by
  have hr : (beginResetBody s.nowMs.2).st.chan = s.chan := beginResetBody_chan _
  unfold blockingInitBody
  simp only
  split
  · rw [hr]
  · split
    · rw [initWriteAndRead_chan_length, pollUntilIdle, pollLoop_chan, hr]
    · rw [pollUntilIdle, pollLoop_chan, hr]

/-- The one next state of a framed body (R146). -/
theorem hostOp_eq_next {w : CommandWord} {body : State → Reply} {s t : State} (h : hostOp w body s = .next t) :
    t = (body (s.log (.op w))).st.reply (body (s.log (.op w))).code (body (s.log (.op w))).data := by
  rcases hostOp_cases w body s with hn | ⟨hf, -, -⟩
  · rw [hn] at h
    injection h with h
    exact h.symm
  · simp [hf] at h

theorem hostOp_chan_length {w : CommandWord} {body : State → Reply} {s t : State} (h : hostOp w body s = .next t)
    (hb : ∀ u, (body u).st.chan.length = u.chan.length) : t.chan.length = s.chan.length := by
  rw [hostOp_eq_next h, reply_chan, hb, log_chan]

/-- An operation guarded by a check runs its body or leaves the state of a refusal. -/
theorem guarded_chan_length {p : Prop} [Decidable p] {w : CommandWord} {body : State → Reply} {s t r : State}
    (h : (if p then hostOp w body s else .next r) = .next t) (hr : r.chan = s.chan)
    (hb : ∀ u, (body u).st.chan.length = u.chan.length) : t.chan.length = s.chan.length := by
  split at h
  · exact hostOp_chan_length h hb
  · cases h; rw [hr]

/-- No instruction changes the length of the channel table (R9, R273). -/
theorem exec_chan_length {i : Instr} {s t : State} (h : exec i s = .next t) : t.chan.length = s.chan.length := by
  cases hi : i.isHost with
  | false =>
    obtain ⟨u, es, hu, -, -, -, -, he⟩ := exec_bus_next i s hi
    rw [hu] at h
    cases h
    rw [he]
  | true =>
    cases i with
    | beginReset => exact hostOp_chan_length h fun u => by rw [beginResetBody_chan]
    | beginWriteSettings timeout => exact hostOp_chan_length h (beginWriteSettingsBody_chan_length _)
    | readSettings u timeout => exact hostOp_chan_length h (readSettingsBody_chan_length _ _)
    | beginCapture timeout => exact hostOp_chan_length h (beginCaptureBody_chan_length _)
    | continueCapture => exact guarded_chan_length h rfl fun u => by simp [replyCode]
    | endCapture => exact hostOp_chan_length h fun u => by rw [endCaptureBody_chan]
    | update =>
      rw [exec, execUpdate] at h
      exact hostOp_chan_length h fun u => by simp [replyCode]
    | blockingInit timeout => exact hostOp_chan_length h (blockingInitBody_chan_length _)
    | rdreg sel =>
      rw [exec, execRdreg] at h
      split at h
      · exact hostOp_chan_length h fun u => rfl
      · cases h; rfl
    | wrreg sel val => exact guarded_chan_length h rfl fun u => by simp [replyCode]
    | rdchan idx => exact guarded_chan_length h rfl fun u => rfl
    | wrchan idx val => exact guarded_chan_length h rfl fun u => by simp [replyCode]
    | rdres idx =>
      rw [exec, execRdres] at h
      split at h
      · exact guarded_chan_length h rfl fun u => rfl
      · cases h; rfl
    | takeNewData =>
      rw [exec, execTakeNewData] at h
      exact hostOp_chan_length h fun u => rfl
    | wreg _ _ _ | rreg _ _ | sync | wakeup | rdata => simp [Instr.isHost] at hi

/-! ## The constants, the trace and the result words -/

/-- `t` has the constants of `s` and what waits at its command port, and only adds to its trace, with a result word for each `RET`. -/
structure Grows (s t : State) : Prop where
  params     : t.params = s.params
  chanLength : t.chan.length = s.chan.length
  sync       : t.syncLvl = s.syncLvl
  fair       : t.env.fair = s.env.fair
  commands   : t.commands = s.commands
  events     : ∃ es, t.trace = s.trace ++ es ∧ t.results = s.results ++ returnedWords es

theorem Grows.refl (s : State) : Grows s s := ⟨rfl, rfl, rfl, rfl, rfl, [], by simp [returnedWords]⟩

theorem refuse_grows (w : CommandWord) (s : State) : Grows s (s.refuse w) :=
  ⟨rfl, rfl, rfl, rfl, rfl, [.op w], by simp [returnedWords]⟩

theorem markFault_grows (w : CommandWord) (s : State) : Grows s (s.markFault w) :=
  ⟨rfl, rfl, rfl, rfl, rfl, [.op w], by simp [returnedWords]⟩

/-- A framed body appends `OP`, the body's events and `RET`; only the last returns a word (R146). -/
theorem hostOp_grows {w : CommandWord} {body : State → Reply} {s t : State} (h : hostOp w body s = .next t)
    (hb : ∃ es gs, Runs (s.log (.op w)) (body (s.log (.op w))).st es gs) (hc : t.chan.length = s.chan.length) : Grows s t := by
  obtain ⟨es, gs, hr⟩ := hb
  have ht := hostOp_eq_next h
  refine ⟨?_, hc, ?_, ?_, ?_, .op w :: (es ++ [.ret (body (s.log (.op w))).code (body (s.log (.op w))).data]), ?_, ?_⟩
  · rw [ht, reply_params, hr.params, log_params]
  · rw [ht, reply_syncLvl, hr.sync, log_syncLvl]
  · rw [ht, reply_env, hr.fair, log_env]
  · rw [ht, reply_commands, hr.commands, log_commands]
  · rw [ht, reply_trace, hr.trace, log_trace]
    simp
  · rw [ht, reply_results, hr.results, log_results]
    simp [returnedWords, returnedWords_inner hr.inner]

theorem returnedWords_bus {es : List Event} (h : ∀ e ∈ es, (∃ b, e = .tx b) ∨ (∃ d, e = .delay d) ∨ ∃ b r, e = .xfer b r) :
    returnedWords es = [] :=
  returnedWords_inner fun e he => by
    obtain ⟨b, rfl⟩ | ⟨d, rfl⟩ | ⟨b, r, rfl⟩ := h e he <;> rfl

theorem exec_grows {i : Instr} {s t : State} (h : exec i s = .next t) : Grows s t := by
  have hc := exec_chan_length h
  cases hi : i.isHost with
  | false =>
    obtain ⟨u, es, hu, htr, hes, hfair, -, he⟩ := exec_bus_next i s hi
    rw [hu] at h
    cases h
    exact ⟨by rw [he], hc, by rw [he], hfair, by rw [he], es, htr, by rw [he, returnedWords_bus hes, List.append_nil]⟩
  | true =>
    obtain ⟨w, -, ⟨-, he⟩ | ⟨-, -, he⟩ | ⟨-, -, body, he, hb⟩⟩ := exec_host_cases i s hi
    · rw [he] at h
      cases h
      exact refuse_grows w s
    · rw [he] at h
      cases h
      exact markFault_grows w s
    · rw [he] at h
      exact hostOp_grows h (hb _) hc

theorem runCommand_grows {c : Command} {s t : State} (h : runCommand c s = .next t) : Grows s t := by
  unfold runCommand at h
  split at h
  · exact exec_grows h
  · cases c with
    | host w => cases h; exact refuse_grows w s
    | bus bytes => cases h

/-- A step that answers a next state found no mark set, and nothing at the port or one command to run (R31). -/
theorem step_cases {s t : State} (h : step s = .next t) :
    s.unmarked ∧ ((s.commands = [] ∧ t = s) ∨
      ∃ c rest, s.commands = c :: rest ∧ runCommand c { s with commands := rest } = .next t) := by
  unfold step stepOf at h
  split at h
  · cases h
  next hr =>
  split at h
  · cases h
  next hf =>
  refine ⟨⟨by simpa using hr, by simpa using hf⟩, ?_⟩
  unfold State.takeCommand at h
  cases hc : s.commands with
  | nil =>
    simp only [hc] at h
    cases h
    exact .inl ⟨rfl, rfl⟩
  | cons c rest =>
    simp only [hc] at h
    exact .inr ⟨c, rest, rfl, h⟩

/-- Settles O17: `exec` keeps the constants and the port and only adds to the trace; the step takes the one command it runs. -/
theorem constantsStandAndTheTraceGrows : Obligations.ConstantsStandAndTheTraceGrows := by
  intro s t h
  obtain ⟨-, ⟨hc, rfl⟩ | ⟨c, rest, hc, hrun⟩⟩ := step_cases h
  · have hg := Grows.refl t
    exact ⟨hg.params, hg.chanLength, hg.sync, hg.fair, hg.events, [], rfl, Nat.zero_le 1⟩
  · have hg := runCommand_grows hrun
    exact ⟨hg.params, hg.chanLength, hg.sync, hg.fair, hg.events, [c], by rw [hg.commands, hc]; rfl, Nat.le_refl 1⟩

end Sys2Proof.Machine


/-! The family of spec/10_state.md: a step takes the oldest command (R31), the invariant of R44, R45 and R48 from construction through every
step, and who writes which element (R33 to R43). -/

namespace Sys2Proof.Machine

/-! ## The step (R31) -/

theorem step_of_command {s : State} {c : Command} {rest : List Command} (hm : s.unmarked) (hc : s.commands = c :: rest) :
    step s = runCommand c { s with commands := rest } := by
  obtain ⟨hr, hf⟩ := hm
  simp [step, stepOf, hr, hf, State.takeCommand, hc]

theorem step_of_no_command {s : State} (hm : s.unmarked) (hc : s.commands = []) : step s = .next s := by
  obtain ⟨hr, hf⟩ := hm
  simp [step, stepOf, hr, hf, State.takeCommand, hc]

theorem runCommand_of_decode {c : Command} {i : Instr} (s : State) (hd : decode c = .ok i) : runCommand c s = exec i s := by
  simp [runCommand, hd]

/-- Settles O6: the step runs the oldest command, and running it is `exec` of what it decodes to. -/
theorem stepRunsTheDecodedInstruction : Obligations.StepRunsTheDecodedInstruction := by
  intro s c rest i hm hc hd
  rw [step_of_command hm hc, runCommand_of_decode _ hd]

/-- Settles O7: an empty port leaves the step nothing to take. -/
theorem nothingAdvancesWithoutACommand : Obligations.NothingAdvancesWithoutACommand :=
  fun _ hm hc => step_of_no_command hm hc

/-! ## What an instruction does to the elements of R51 -/

/-- `t` differs from `s` in its marks, its trace, its two ports and its environment at most: every element of R51 and every interface level
is as it was. -/
def SameElements (s t : State) : Prop :=
  t = { s with
    refused := t.refused, faulted := t.faulted, trace := t.trace, results := t.results, commands := t.commands, env := t.env }

theorem SameButInputs.sameElements {s t : State} (h : SameButInputs s t) : SameElements s t := by
  rw [SameElements, h.1]

theorem log_sameElements (e : Event) (s : State) : SameElements s (s.log e) := rfl

theorem reply_sameElements (c : Code) (d : BitVec 32) (s : State) : SameElements s (s.reply c d) := rfl

theorem refuse_sameElements (w : CommandWord) (s : State) : SameElements s (s.refuse w) := rfl

theorem markFault_sameElements (w : CommandWord) (s : State) : SameElements s (s.markFault w) := rfl

theorem withCommands_sameElements (cs : List Command) (s : State) : SameElements s { s with commands := cs } := rfl

/-- The state the body of a host operation leaves (R146). A bus command has no body. -/
def bodyState (i : Instr) (s : State) : State :=
  match i with
  | .beginReset => (beginResetBody s).st
  | .beginWriteSettings timeout => (beginWriteSettingsBody timeout.toNat s).st
  | .readSettings u timeout => (readSettingsBody u timeout.toNat s).st
  | .beginCapture timeout => (beginCaptureBody timeout.toNat s).st
  | .continueCapture => s.pipelinedStep
  | .endCapture => (endCaptureBody s).st
  | .update => s.update
  | .blockingInit timeout => (blockingInitBody timeout.toNat s).st
  | .wrreg sel val => s.setElement sel val
  | .wrchan idx val => s.setChan idx val
  | .takeNewData => s.clearNewData
  | .rdreg _ | .rdchan _ | .rdres _ | .wreg _ _ _ | .rreg _ _ | .sync | .wakeup | .rdata => s

/-- A framed body changes the elements as the body does. -/
theorem hostOp_sameElements {w : CommandWord} {body : State → Reply} {s t : State} (h : hostOp w body s = .next t) :
    SameElements (body (s.log (.op w))).st t := by
  rw [hostOp_eq_next h]
  exact reply_sameElements _ _ _

/-- An operation guarded by a check is its framed body or the state beside it. -/
theorem guarded_sameElements {p : Prop} [Decidable p] {w : CommandWord} {body : State → Reply} {s t r : State}
    (h : (if p then hostOp w body s else .next r) = .next t) :
    t = r ∨ SameElements (body (s.log (.op w))).st t := by
  split at h
  · exact .inr (hostOp_sameElements h)
  · cases h; exact .inl rfl

/-- A host operation changes the elements as its body does, unless its check sends it to a refusal or a fault mark. -/
theorem exec_host_sameElements {i : Instr} {s t : State} (hi : i.isHost = true) (h : exec i s = .next t) :
    SameElements s t ∨ ∃ w, SameElements (bodyState i (s.log (.op w))) t := by
  cases i with
  | beginReset | beginWriteSettings _ | readSettings _ _ | beginCapture _ | endCapture | blockingInit _ =>
    exact .inr ⟨_, hostOp_sameElements h⟩
  | update =>
    rw [exec, execUpdate] at h
    exact .inr ⟨_, hostOp_sameElements h⟩
  | takeNewData =>
    rw [exec, execTakeNewData] at h
    exact .inr ⟨_, hostOp_sameElements h⟩
  | continueCapture | wrreg _ _ | rdchan _ | wrchan _ _ =>
    obtain rfl | hb := guarded_sameElements h
    · exact .inl (refuse_sameElements _ s)
    · exact .inr ⟨_, hb⟩
  | rdreg sel =>
    rw [exec, execRdreg] at h
    split at h
    · exact .inr ⟨_, hostOp_sameElements h⟩
    · cases h; exact .inl (refuse_sameElements _ s)
  | rdres idx =>
    rw [exec, execRdres] at h
    split at h
    · obtain rfl | hb := guarded_sameElements h
      · exact .inl (markFault_sameElements _ s)
      · exact .inr ⟨_, hb⟩
    · cases h; exact .inl (refuse_sameElements _ s)
  | wreg _ _ _ | rreg _ _ | sync | wakeup | rdata => simp [Instr.isHost] at hi

/-- An instruction either leaves every element as it was (a bus command, a refusal, an unwritten read) or is not refused and changes them as
its body does. -/
theorem exec_next_cases {i : Instr} {s t : State} (h : exec i s = .next t) :
    SameElements s t ∨ (¬ i.refusedIn s ∧ ∃ w, SameElements (bodyState i (s.log (.op w))) t) := by
  cases hi : i.isHost with
  | false =>
    obtain ⟨u, es, hu, -, -, hfair, -, he⟩ := exec_bus_next i s hi
    rw [hu] at h
    cases h
    exact .inl (SameButInputs.sameElements ⟨he, hfair⟩)
  | true =>
    by_cases hr : i.refusedIn s
    · obtain ⟨w, -, ⟨-, he⟩ | ⟨hn, -⟩ | ⟨hn, -⟩⟩ := exec_host_cases i s hi
      · rw [he] at h
        cases h
        exact .inl (refuse_sameElements w s)
      · exact absurd hr hn
      · exact absurd hr hn
    · exact (exec_host_sameElements hi h).imp_right fun hw => ⟨hr, hw⟩

/-! ## The invariant (R44, R45, R48) -/

theorem State.Inv.ofSame {s t : State} (h : s.Inv) (k : SameElements s t) : t.Inv := by
  rw [k]
  exact h.congr rfl rfl rfl rfl rfl rfl rfl rfl rfl rfl rfl rfl rfl

/-- A capture that ends keeps its channel in flight for the drain (R245, R45). -/
theorem State.Inv.endCapture {s : State} (h : s.Inv) : (endCaptureBody s).st.Inv := by
  unfold endCaptureBody
  split
  · exact h
  · next hp =>
    have hc : s.phase = .capturing := not_not.1 hp
    exact {
      channels := h.channels
      tables := h.tables
      nextValid := h.nextValid
      curValid := h.curValid
      newValid := h.newValid
      inFlight := iff_of_true (h.inFlight.2 (.inl hc)) (.inr rfl)
      levels := h.levels
      busReady := fun _ => h.busReady (by simp [hc])
      samples := h.samples
      newWritten := h.newWritten }

theorem State.Inv.setElement {s : State} (h : s.Inv) (sel val : BitVec 8) : (s.setElement sel val).Inv := by
  unfold State.setElement
  split <;> exact h.congr rfl rfl rfl rfl rfl rfl rfl rfl rfl rfl rfl rfl rfl

theorem State.Inv.setChan {s : State} (h : s.Inv) (idx val : BitVec 8) : (s.setChan idx val).Inv :=
  { h with tables := wf_setChan idx val s h.tables }

theorem State.Inv.clearNewData {s : State} (h : s.Inv) : s.clearNewData.Inv :=
  { h with newValid := .inl rfl, newWritten := fun hn => absurd rfl hn }

theorem State.Inv.initRead {s : State} (h : s.Inv) (t0 timeout : Nat) : (initRead t0 timeout s).st.Inv :=
  (h.ofInputs (nowFrom_sameButInputs 0 s)).readSettings 1 _

theorem State.Inv.initWriteAndRead {s : State} (h : s.Inv) (t0 timeout : Nat) : (initWriteAndRead t0 timeout s).st.Inv := by
  have hw := (h.ofInputs (nowFrom_sameButInputs 0 s)).beginWriteSettings (s.remaining t0 timeout).1
  unfold Sys2Proof.Machine.initWriteAndRead
  simp only
  split
  · exact hw
  · split
    · exact (hw.pollLoop _ _ _).initRead _ _
    · exact hw.pollLoop _ _ _

theorem State.Inv.blockingInit {s : State} (h : s.Inv) (timeout : Nat) : (blockingInitBody timeout s).st.Inv := by
  have hr := (h.ofInputs (nowFrom_sameButInputs 0 s)).beginReset
  unfold blockingInitBody
  simp only
  split
  · exact hr
  · split
    · exact (hr.pollLoop _ _ _).initWriteAndRead _ _
    · exact hr.pollLoop _ _ _

theorem capture_of_not_refused {s : State} (h : ¬ Instr.continueCapture.refusedIn s) :
    s.phase = .capturing ∨ s.phase = .finishingCapture := by
  simp only [Instr.refusedIn] at h
  tauto

theorem State.Inv.bodyState {i : Instr} {s : State} (h : s.Inv) (hr : ¬ i.refusedIn s) : (bodyState i s).Inv := by
  cases i with
  | beginReset => exact h.beginReset
  | beginWriteSettings timeout => exact h.beginWriteSettings _
  | readSettings u timeout => exact h.readSettings _ _
  | beginCapture timeout => exact h.beginCapture _
  | continueCapture => exact h.pipelinedStep (capture_of_not_refused hr)
  | endCapture => exact h.endCapture
  | update => exact h.update
  | blockingInit timeout => exact h.blockingInit _
  | wrreg sel val => exact h.setElement sel val
  | wrchan idx val => exact h.setChan idx val
  | takeNewData => exact h.clearNewData
  | rdreg _ | rdchan _ | rdres _ | wreg _ _ _ | rreg _ _ | sync | wakeup | rdata => exact h

theorem State.Inv.exec {i : Instr} {s t : State} (h : s.Inv) (he : exec i s = .next t) : t.Inv := by
  obtain hsame | ⟨hr, w, hsame⟩ := exec_next_cases he
  · exact h.ofSame hsame
  · exact State.Inv.ofSame ((h.log (.op w)).bodyState hr) hsame

theorem State.Inv.runCommand {c : Command} {s t : State} (h : s.Inv) (hc : runCommand c s = .next t) : t.Inv := by
  unfold Sys2Proof.Machine.runCommand at hc
  split at hc
  · exact h.exec hc
  · cases c with
    | host w => cases hc; exact h.ofSame (refuse_sameElements w s)
    | bus bytes => cases hc

/-- Settles O16: taking a command and running it keeps the invariant; the table's length stands by O17. -/
theorem everyStepKeepsTheInvariant : Obligations.EveryStepKeepsTheInvariant := by
  intro s t h hs
  obtain ⟨-, hlen, -⟩ := constantsStandAndTheTraceGrows s t hs
  refine ⟨?_, hlen⟩
  obtain ⟨-, ⟨-, rfl⟩ | ⟨c, rest, -, hrun⟩⟩ := step_cases hs
  · exact h
  · exact (h.ofSame (withCommands_sameElements rest s)).runCommand hrun

/-- The state right after construction (R51): nothing in flight, nothing written, the lines at rest. -/
theorem construct_inv (p : Params) (cfg : Settings) (chan : List Byte) (oos : BitVec 1) (hn : 1 ≤ p.n.toNat)
    (hc : chan.length = p.n.toNat) : (State.construct p cfg chan oos).Inv where
  channels := hn
  tables := wf_construct p cfg chan oos hc
  nextValid := hn
  curValid := .inl rfl
  newValid := .inl rfl
  inFlight := by simp [State.construct]
  levels := ⟨rfl, rfl, rfl, rfl⟩
  busReady := fun h => absurd rfl h
  samples := fun v hv => by rw [List.eq_of_mem_replicate hv]; decide
  newWritten := fun h => absurd rfl h

/-- Settles O15: the reset state is a construction with two channels. -/
theorem constructionMeetsTheInvariant : Obligations.ConstructionMeetsTheInvariant :=
  ⟨construct_inv, construct_inv resetParams _ _ _ (by decide) rfl⟩

/-! ## Who writes which element (R33 to R43) -/

/-- The host-visible elements an operation may write (R33, R36 to R40, R42, R43). -/
inductive Element where
  | phase
  | cfg
  | chan
  | oos
  | nextMux
  | curMux
  | result
  | wr
  | newData

/-- What an element holds. -/
abbrev Element.Value : Element → Type
  | .phase => Phase
  | .cfg => Settings
  | .chan => List Byte
  | .oos => BitVec 1
  | .nextMux | .curMux | .newData => BitVec 8
  | .result => List (BitVec 32)
  | .wr => List Bool

/-- The value of an element in a state. -/
def Element.read (s : State) : (e : Element) → e.Value
  | .phase => s.phase
  | .cfg => s.cfg
  | .chan => s.chan
  | .oos => s.oos
  | .nextMux => s.nextMux
  | .curMux => s.curMux
  | .result => s.result
  | .wr => s.wr
  | .newData => s.newData

/-- From `s` to `t` only elements of `W` change, and `Uninitialized` is not entered (R34). -/
structure Writes (W : List Element) (s t : State) : Prop where
  kept    : ∀ e, e ∉ W → e.read t = e.read s
  started : s.phase ≠ .uninitialized → t.phase ≠ .uninitialized

theorem Writes.refl (W : List Element) (s : State) : Writes W s s := ⟨fun _ _ => rfl, id⟩

theorem Writes.trans {W : List Element} {s t u : State} (h : Writes W s t) (k : Writes W t u) : Writes W s u :=
  ⟨fun e he => (k.kept e he).trans (h.kept e he), k.started ∘ h.started⟩

theorem Writes.mono {W V : List Element} {s t : State} (h : Writes W s t) (hV : W ⊆ V) : Writes V s t :=
  ⟨fun e he => h.kept e fun hW => he (hV hW), h.started⟩

theorem Writes.mem_of_ne {W : List Element} {s t : State} (h : Writes W s t) (e : Element) (hne : e.read t ≠ e.read s) : e ∈ W :=
  by_contra fun he => hne (h.kept e he)

/-- `Writes` field by field. -/
theorem writes_iff {W : List Element} {s t : State} : Writes W s t ↔
    (.phase ∈ W ∨ t.phase = s.phase) ∧ (.cfg ∈ W ∨ t.cfg = s.cfg) ∧ (.chan ∈ W ∨ t.chan = s.chan) ∧ (.oos ∈ W ∨ t.oos = s.oos) ∧
    (.nextMux ∈ W ∨ t.nextMux = s.nextMux) ∧ (.curMux ∈ W ∨ t.curMux = s.curMux) ∧ (.result ∈ W ∨ t.result = s.result) ∧
    (.wr ∈ W ∨ t.wr = s.wr) ∧ (.newData ∈ W ∨ t.newData = s.newData) ∧ (s.phase ≠ .uninitialized → t.phase ≠ .uninitialized) := by
  constructor
  · intro h
    have hor : ∀ e, e ∈ W ∨ e.read t = e.read s := fun e => or_iff_not_imp_left.2 (h.kept e)
    exact ⟨hor .phase, hor .cfg, hor .chan, hor .oos, hor .nextMux, hor .curMux, hor .result, hor .wr, hor .newData, h.started⟩
  · rintro ⟨h1, h2, h3, h4, h5, h6, h7, h8, h9, hs⟩
    refine ⟨fun e he => ?_, hs⟩
    cases e with
    | phase => exact h1.resolve_left he
    | cfg => exact h2.resolve_left he
    | chan => exact h3.resolve_left he
    | oos => exact h4.resolve_left he
    | nextMux => exact h5.resolve_left he
    | curMux => exact h6.resolve_left he
    | result => exact h7.resolve_left he
    | wr => exact h8.resolve_left he
    | newData => exact h9.resolve_left he

theorem SameElements.writes {s t : State} (h : SameElements s t) (W : List Element) : Writes W s t := by
  rw [h, writes_iff]
  simp

theorem SameButInputs.curMux_eq {s t : State} (h : SameButInputs s t) : t.curMux = s.curMux := by rw [h.1]

theorem SameButInputs.writes {s t : State} (h : SameButInputs s t) (W : List Element) : Writes W s t := h.sameElements.writes W

/-- The step and the sampling of `UPDATE` by the `STATE` it finds (R233, R240). -/
def updateWrites : Phase → List Element
  | .uninitialized | .idle => []
  | .resetting | .writingSettings => [.phase]
  | .capturing => [.nextMux, .curMux, .result, .wr, .newData]
  | .finishingCapture => [.phase, .curMux, .result, .wr, .newData]

/-- The element a selector names for writing (R116): `OOS`, or a field of `CFG`. -/
def selectorWrites (sel : BitVec 8) : List Element := if sel = 0x08 then [.oos] else [.cfg]

/-- The elements an instruction may write in a given `STATE` (R33, R36 to R40, R42, R43). -/
def writeList (i : Instr) (p : Phase) : List Element :=
  match i with
  | .beginReset => [.phase, .curMux]
  | .beginWriteSettings _ => if p = .idle then [.phase] else []
  | .readSettings u _ => if u = 1 then [.cfg, .chan] else []
  | .beginCapture _ => if p = .idle then [.phase, .nextMux, .curMux, .result, .wr, .newData] else []
  | .endCapture => if p = .capturing then [.phase] else []
  | .update | .continueCapture => updateWrites p
  | .blockingInit _ => [.phase, .curMux, .cfg, .chan]
  | .wrreg sel _ => selectorWrites sel
  | .wrchan _ _ => [.chan]
  | .takeNewData => [.newData]
  | .rdreg _ | .rdchan _ | .rdres _ | .wreg _ _ _ | .rreg _ _ | .sync | .wakeup | .rdata => []

/-! ## What each body writes -/

theorem enter_writes {p : Phase} (s : State) (hp : p ≠ .uninitialized) : Writes [.phase] s (s.enter p) := by
  rw [writes_iff]
  simp [hp]

theorem adopt_writes (b : Block) (s : State) : Writes [.cfg, .chan] s (s.adopt b) := by
  rw [writes_iff]
  simp

theorem setChan_writes (idx val : BitVec 8) (s : State) : Writes [.chan] s (s.setChan idx val) := by
  rw [writes_iff]
  simp

theorem clearNewData_writes (s : State) : Writes [.newData] s s.clearNewData := by
  rw [writes_iff]
  simp

theorem setElement_writes (sel val : BitVec 8) (s : State) : Writes (selectorWrites sel) s (s.setElement sel val) := by
  rw [selectorWrites]
  by_cases h8 : sel = 0x08
  · subst h8
    rw [if_pos rfl, writes_iff]
    simp [State.setElement]
  · have hn : sel.toNat ≠ 8 := fun h => h8 (BitVec.eq_of_toNat_eq h)
    rw [if_neg h8, writes_iff, State.setElement]
    split <;> simp_all

theorem beginResetBody_writes (s : State) : Writes [.phase, .curMux] s (beginResetBody s).st := by
  unfold beginResetBody
  split
  · exact Writes.refl _ s
  · simp [replyCode, controlPinReset_eq, rearm_eq, writes_iff]
  · simp [replyCode, clockPinReset_eq, rearm_eq, writes_iff]

/-- A step in a capture (R233): in `Capturing` it moves both cursors, in `FinishingCapture` it ends the capture; it may store a sample. -/
theorem pipelinedStep_writes (s : State) (h : s.phase = .capturing ∨ s.phase = .finishingCapture) :
    Writes (updateWrites s.phase) s s.pipelinedStep := by
  rcases h with h | h <;> by_cases hc : s.curMux = Config.sentinel
  · rw [pipelinedStep_first s h hc, writes_iff]
    simp [updateWrites, h]
  · rw [pipelinedStep_next s h hc, writes_iff]
    simp [updateWrites, h]
  · rw [pipelinedStep_drain_empty s (by simp [h]) hc, writes_iff]
    simp [updateWrites, h]
  · rw [pipelinedStep_drain s (by simp [h]) hc, writes_iff]
    simp [updateWrites, h]

theorem update_writes (s : State) : Writes (updateWrites s.phase) s s.update := by
  have hd := drdy_sameButInputs s
  have hs (h : s.phase = .capturing ∨ s.phase = .finishingCapture) : Writes (updateWrites s.phase) s s.drdy.2.pipelinedStep :=
    (hd.writes _).trans (pipelinedStep_writes s.drdy.2 h)
  cases hp : s.phase with
  | uninitialized | idle => rw [update_noop s (by simp [hp])]; exact Writes.refl _ s
  | resetting | writingSettings =>
    rw [update_sampling s (by simp [hp]), writes_iff]
    split <;> simp [updateWrites, hp]
  | capturing | finishingCapture =>
    rw [hp] at hs
    simp only [State.update, hp]
    split
    · exact hs (by simp)
    · exact hd.writes _

/-- A wait leaves the elements to what follows it (R144). -/
theorem waitThen_writes {W : List Element} (timeout : Nat) (c : Code) (act : State → Reply) (s : State)
    (ha : ∀ t, SameButInputs s t → Writes W t (act t).st) : Writes W s (waitThen timeout c act s).st := by
  have hsame := readyWait_sameButInputs timeout s
  have hw := hsame.writes W
  cases hr : (readyWait timeout s).ready with
  | true => rw [waitThen_ready _ _ _ _ hr]; exact hw.trans (ha _ hsame)
  | false => rw [waitThen_timeout _ _ _ _ hr]; exact hw

theorem beginWriteSettingsBody_writes (timeout : Nat) (s : State) :
    Writes (if s.phase = .idle then [.phase] else []) s (beginWriteSettingsBody timeout s).st := by
  unfold beginWriteSettingsBody
  by_cases hp : s.phase = .idle
  · rw [if_neg (not_not.2 hp), if_pos hp]
    refine waitThen_writes _ _ _ _ fun t _ => ?_
    simp only [replyCode, writeBlock_eq]
    simp [writes_iff]
  · rw [if_pos hp]
    exact Writes.refl _ s

theorem readAndSettle_writes (u : BitVec 1) (s : State) :
    Writes (if u = 1 then [.cfg, .chan] else []) s (readAndSettle u s).st := by
  rw [readAndSettle_eq]
  by_cases hu : u = 1
  · rw [if_pos hu, if_pos hu, writes_iff]
    simp [replyCode]
  · rw [if_neg hu, if_neg hu, writes_iff]
    simp [replyCode]

theorem readSettingsBody_writes (u : BitVec 1) (timeout : Nat) (s : State) :
    Writes (if u = 1 then [.cfg, .chan] else []) s (readSettingsBody u timeout s).st := by
  unfold readSettingsBody
  by_cases hp : s.phase = .idle
  · rw [if_neg (not_not.2 hp)]
    exact waitThen_writes _ _ _ _ fun t _ => readAndSettle_writes u t
  · rw [if_pos hp]
    exact Writes.refl _ s

theorem firstStep_writes (s : State) :
    Writes [.phase, .nextMux, .curMux, .result, .wr, .newData] s (s.enter .capturing).pipelinedStep :=
  ((enter_writes s (by simp)).mono (by simp)).trans ((pipelinedStep_writes _ (.inl rfl)).mono (by simp [updateWrites]))

theorem beginCaptureBody_writes (timeout : Nat) (s : State) :
    Writes (if s.phase = .idle then [.phase, .nextMux, .curMux, .result, .wr, .newData] else []) s (beginCaptureBody timeout s).st := by
  unfold beginCaptureBody
  by_cases hp : s.phase = .idle
  · rw [if_neg (not_not.2 hp), if_pos hp]
    exact waitThen_writes _ _ _ _ fun t _ => firstStep_writes t
  · rw [if_pos hp]
    exact Writes.refl _ s

theorem endCaptureBody_writes (s : State) : Writes (if s.phase = .capturing then [.phase] else []) s (endCaptureBody s).st := by
  unfold endCaptureBody
  by_cases hp : s.phase = .capturing
  · rw [if_neg (not_not.2 hp), if_pos hp]
    exact enter_writes s (by simp)
  · rw [if_pos hp]
    exact Writes.refl _ s

/-! ## The polling loops of `BLOCKING_INIT` (R260) -/

/-- Not in one of the two capture states. -/
def OutsideCapture (s : State) : Prop := s.phase ≠ .capturing ∧ s.phase ≠ .finishingCapture

/-- Outside a capture an `UPDATE` takes no pipelined step, and does not enter a capture. -/
theorem update_outside {s : State} (h : OutsideCapture s) : Writes [.phase] s s.update ∧ OutsideCapture s.update := by
  obtain ⟨hc, hf⟩ := h
  have hw := update_writes s
  cases hp : s.phase with
  | uninitialized | idle =>
    rw [update_noop s (by simp [hp])]
    exact ⟨Writes.refl _ s, hc, hf⟩
  | resetting | writingSettings =>
    rw [hp] at hw
    refine ⟨hw, ?_⟩
    rw [update_sampling s (by simp [hp])]
    simp only [OutsideCapture]
    split <;> simp [hp]
  | capturing => exact absurd hp hc
  | finishingCapture => exact absurd hp hf

/-- A polling loop that begins outside a capture writes `STATE` alone. -/
theorem pollLoop_writes (t0 timeout fuel : Nat) {s : State} (h : OutsideCapture s) :
    Writes [.phase] s (pollLoop t0 timeout fuel s).st := by
  obtain ⟨hu, ho⟩ := update_outside h
  induction fuel generalizing s with
  | zero =>
    rw [pollLoop]
    split
    · exact hu
    · exact hu.trans ((waitOut_sameButInputs _ _ _).writes _)
  | succ fuel ih =>
    have hn := hu.trans ((nowFrom_sameButInputs 0 s.update).writes _)
    have hno : OutsideCapture s.update.nowMs.2 := ho
    rw [pollLoop_succ]
    split
    · exact hu
    · split
      · exact hn
      · obtain ⟨hu', ho'⟩ := update_outside hno
        exact hn.trans (ih hno hu' ho')

theorem pollUntilIdle_writes (t0 timeout : Nat) {s : State} (h : OutsideCapture s) :
    Writes [.phase] s (pollUntilIdle t0 timeout s).st := pollLoop_writes t0 timeout _ h

theorem beginResetBody_outside {s : State} (h : (beginResetBody s).code = .ok) : OutsideCapture (beginResetBody s).st := by
  unfold beginResetBody at *
  split at h
  · cases h
  all_goals exact ⟨by simp [replyCode, rearm_eq], by simp [replyCode, rearm_eq]⟩

theorem beginWriteSettingsBody_outside {timeout : Nat} {s : State} (h : (beginWriteSettingsBody timeout s).code = .ok) :
    OutsideCapture (beginWriteSettingsBody timeout s).st := by
  unfold beginWriteSettingsBody at *
  split at h
  · cases h
  · next hp =>
    rw [if_neg hp]
    cases hr : (readyWait timeout s).ready with
    | true => rw [waitThen_ready _ _ _ _ hr]; exact ⟨by simp [replyCode], by simp [replyCode]⟩
    | false => rw [waitThen_timeout _ _ _ _ hr] at h; cases h

theorem initRead_writes (t0 timeout : Nat) (s : State) : Writes [.cfg, .chan] s (initRead t0 timeout s).st :=
  ((nowFrom_sameButInputs 0 s).writes _).trans (readSettingsBody_writes 1 _ _)

theorem initWriteAndRead_writes (t0 timeout : Nat) (s : State) :
    Writes [.phase, .cfg, .chan] s (initWriteAndRead t0 timeout s).st := by
  have hb := beginWriteSettingsBody_writes (s.remaining t0 timeout).1 (s.remaining t0 timeout).2
  have hw := ((nowFrom_sameButInputs 0 s).writes _).trans (hb.mono (V := [.phase, .cfg, .chan]) (by split <;> simp))
  unfold initWriteAndRead
  simp only
  split
  · exact hw
  · next hok =>
    have hp := hw.trans ((pollUntilIdle_writes t0 timeout (beginWriteSettingsBody_outside (not_not.1 hok))).mono (by simp))
    split
    · exact hp.trans ((initRead_writes _ _ _).mono (by simp))
    · exact hp

theorem blockingInitBody_writes (timeout : Nat) (s : State) :
    Writes [.phase, .curMux, .cfg, .chan] s (blockingInitBody timeout s).st := by
  have hr := ((nowFrom_sameButInputs 0 s).writes _).trans
    ((beginResetBody_writes s.nowMs.2).mono (V := [.phase, .curMux, .cfg, .chan]) (by simp))
  unfold blockingInitBody
  simp only
  split
  · exact hr
  · next hok =>
    have hp := hr.trans ((pollUntilIdle_writes s.nowMs.1 timeout (beginResetBody_outside (not_not.1 hok))).mono (by simp))
    split
    · exact hp.trans ((initWriteAndRead_writes _ _ _).mono (by simp))
    · exact hp

/-! ## What each instruction writes -/

theorem bodyState_writes {i : Instr} {s : State} (hr : ¬ i.refusedIn s) : Writes (writeList i s.phase) s (bodyState i s) := by
  cases i with
  | beginReset => exact beginResetBody_writes s
  | beginWriteSettings timeout => exact beginWriteSettingsBody_writes _ s
  | readSettings u timeout => exact readSettingsBody_writes u _ s
  | beginCapture timeout => exact beginCaptureBody_writes _ s
  | continueCapture => exact pipelinedStep_writes s (capture_of_not_refused hr)
  | endCapture => exact endCaptureBody_writes s
  | update => exact update_writes s
  | blockingInit timeout => exact blockingInitBody_writes _ s
  | wrreg sel val => exact setElement_writes sel val s
  | wrchan idx val => exact setChan_writes idx val s
  | takeNewData => exact clearNewData_writes s
  | rdreg _ | rdchan _ | rdres _ | wreg _ _ _ | rreg _ _ | sync | wakeup | rdata => exact Writes.refl _ s

/-- An instruction writes the elements of its list, whatever it answers. -/
theorem exec_writes {i : Instr} {s t : State} (h : exec i s = .next t) : Writes (writeList i s.phase) s t := by
  obtain hsame | ⟨hr, w, hsame⟩ := exec_next_cases h
  · exact hsame.writes _
  · have hb := bodyState_writes (s := s.log (.op w)) hr
    exact (((log_sameElements _ s).writes _).trans hb).trans (hsame.writes _)

/-! ## Which instructions list an element -/

@[simp] theorem mem_selectorWrites (e : Element) (sel : BitVec 8) :
    e ∈ selectorWrites sel ↔ (e = .oos ∧ sel = 0x08) ∨ (e = .cfg ∧ sel ≠ 0x08) := by
  by_cases h : sel = 0x08
  · rw [selectorWrites, if_pos h, List.mem_singleton]
    tauto
  · rw [selectorWrites, if_neg h, List.mem_singleton]
    tauto

@[simp] theorem cfg_notMem_updateWrites (p : Phase) : .cfg ∉ updateWrites p := by cases p <;> simp [updateWrites]
@[simp] theorem chan_notMem_updateWrites (p : Phase) : .chan ∉ updateWrites p := by cases p <;> simp [updateWrites]
@[simp] theorem oos_notMem_updateWrites (p : Phase) : .oos ∉ updateWrites p := by cases p <;> simp [updateWrites]
@[simp] theorem nextMux_mem_updateWrites (p : Phase) : .nextMux ∈ updateWrites p ↔ p = .capturing := by
  cases p <;> simp [updateWrites]

theorem phase_mem_writeList_uninitialized {i : Instr} (h : .phase ∈ writeList i .uninitialized) :
    i = .beginReset ∨ ∃ timeout, i = .blockingInit timeout := by
  cases i <;> simp_all [writeList, updateWrites]

theorem phase_mem_writeList {i : Instr} {p : Phase} (h : .phase ∈ writeList i p) :
    i = .beginReset ∨ i = .update ∨ i = .continueCapture ∨ i = .endCapture ∨
      ∃ timeout, i = .beginWriteSettings timeout ∨ i = .beginCapture timeout ∨ i = .blockingInit timeout := by
  cases i <;> simp_all [writeList]

theorem cfg_mem_writeList {i : Instr} {p : Phase} (h : .cfg ∈ writeList i p) :
    (∃ sel val, i = .wrreg sel val) ∨ (∃ timeout, i = .readSettings 1 timeout) ∨ ∃ timeout, i = .blockingInit timeout := by
  cases i <;> simp_all [writeList]

theorem chan_mem_writeList {i : Instr} {p : Phase} (h : .chan ∈ writeList i p) :
    (∃ idx val, i = .wrchan idx val) ∨ (∃ timeout, i = .readSettings 1 timeout) ∨ ∃ timeout, i = .blockingInit timeout := by
  cases i <;> simp_all [writeList]

theorem oos_mem_writeList {i : Instr} {p : Phase} (h : .oos ∈ writeList i p) : ∃ val, i = .wrreg 0x08 val := by
  cases i <;> simp_all [writeList]

theorem nextMux_mem_writeList {i : Instr} {p : Phase} (h : .nextMux ∈ writeList i p) :
    (∃ timeout, i = .beginCapture timeout) ∨ (p = .capturing ∧ (i = .update ∨ i = .continueCapture)) := by
  cases i <;> simp_all [writeList]

theorem curMux_mem_writeList {i : Instr} {p : Phase} (h : .curMux ∈ writeList i p) :
    i = .beginReset ∨ i = .update ∨ i = .continueCapture ∨ ∃ timeout, i = .blockingInit timeout ∨ i = .beginCapture timeout := by
  cases i <;> simp_all [writeList]

theorem sample_mem_writeList {i : Instr} {p : Phase} (h : .result ∈ writeList i p ∨ .wr ∈ writeList i p) :
    i = .update ∨ i = .continueCapture ∨ ∃ timeout, i = .beginCapture timeout := by
  cases i <;> simp_all [writeList]

theorem newData_mem_writeList {i : Instr} {p : Phase} (h : .newData ∈ writeList i p) :
    i = .update ∨ i = .continueCapture ∨ i = .takeNewData ∨ ∃ timeout, i = .beginCapture timeout := by
  cases i <;> simp_all [writeList]

/-- Settles O20: no operation enters `Uninitialized`, and only two write `STATE` in it. -/
theorem uninitializedIsNeverReentered : Obligations.UninitializedIsNeverReentered := by
  intro i s t h
  have hw := exec_writes h
  refine ⟨hw.started, fun hs ht => phase_mem_writeList_uninitialized ?_⟩
  rw [← hs]
  exact hw.mem_of_ne .phase fun he => ht (he.trans hs)

/-! ## The first step of a capture -/

/-- A capture begins with nothing in flight, so its first step stores no sample (R230, R45). -/
theorem beginCaptureBody_stores_nothing {s : State} (timeout : Nat) (h : s.Inv) :
    Writes [.phase, .nextMux, .curMux] s (beginCaptureBody timeout s).st := by
  by_cases hp : s.phase = .idle
  · have hc : s.curMux = Config.sentinel := h.idle_curMux (by simp [hp]) (by simp [hp])
    rw [beginCaptureBody, if_neg (not_not.2 hp)]
    refine waitThen_writes _ _ _ _ fun t ht => ?_
    rw [replyCode, pipelinedStep_first (t.enter .capturing) rfl (ht.curMux_eq.trans hc), writes_iff]
    simp
  · rw [beginCaptureBody, if_pos hp]
    exact Writes.refl _ s

theorem exec_beginCapture_stores_nothing {timeout : BitVec 32} {s t : State} (h : s.Inv)
    (he : exec (.beginCapture timeout) s = .next t) : Writes [.phase, .nextMux, .curMux] s t := by
  obtain hsame | ⟨-, w, hsame⟩ := exec_next_cases he
  · exact hsame.writes _
  · have hb := beginCaptureBody_stores_nothing timeout.toNat (h.log (.op w))
    exact (((log_sameElements _ s).writes _).trans hb).trans (hsame.writes _)

/-- Settles O21: an element that changes is in the instruction's write list, and the lists are those of the rules. -/
theorem onlyTheListedOperationsWrite : Obligations.OnlyTheListedOperationsWrite := by
  intro i s t h
  have hw := exec_writes h
  refine ⟨fun hne => phase_mem_writeList (hw.mem_of_ne .phase hne), fun hne => cfg_mem_writeList (hw.mem_of_ne .cfg hne),
    fun hne => chan_mem_writeList (hw.mem_of_ne .chan hne), fun hne => oos_mem_writeList (hw.mem_of_ne .oos hne),
    fun hne => nextMux_mem_writeList (hw.mem_of_ne .nextMux hne), fun hne => curMux_mem_writeList (hw.mem_of_ne .curMux hne),
    fun hne => sample_mem_writeList (hne.imp (hw.mem_of_ne .result) (hw.mem_of_ne .wr)),
    fun hne => newData_mem_writeList (hw.mem_of_ne .newData hne), ?_, (exec_grows h).params⟩
  rintro hinv ⟨timeout, rfl⟩
  have hc := exec_beginCapture_stores_nothing hinv h
  exact ⟨hc.kept .result (by simp), hc.kept .wr (by simp), hc.kept .newData (by simp)⟩

end Sys2Proof.Machine


/-! The family of spec/20_memory.md: what an instruction adds to the trace keeps the bracket discipline of the shared bus (R88) and reads a
clock that never decreases (R74). -/

namespace Sys2Proof.Machine

/-! ## How a host operation ends -/

/-- A host operation that answers a next state was refused, or read an unwritten slot, or ran a body between its `OP` and its `RET` (R146). -/
theorem exec_host_next {i : Instr} {s t : State} (hi : i.isHost = true) (h : exec i s = .next t) :
    ∃ w, t = s.refuse w ∨ t = s.markFault w ∨
      ∃ u es gs c d, Runs (s.log (.op w)) u es gs ∧ t = u.reply c d := by
  obtain ⟨w, -, ⟨-, he⟩ | ⟨-, -, he⟩ | ⟨-, -, body, he, hb⟩⟩ := exec_host_cases i s hi
  · rw [he] at h
    cases h
    exact ⟨w, .inl rfl⟩
  · rw [he] at h
    cases h
    exact ⟨w, .inr (.inl rfl)⟩
  · rw [he] at h
    obtain ⟨es, gs, hr⟩ := hb (s.log (.op w))
    exact ⟨w, .inr (.inr ⟨_, es, gs, _, _, hr, hostOp_eq_next h⟩)⟩

/-- What a framed body appends: `OP`, the body's own events, `RET` (R146). -/
theorem Runs.reply_trace {s u : State} {w : CommandWord} {es : List Event} {gs : List (List Byte)}
    (h : Runs (s.log (.op w)) u es gs) (c : Code) (d : BitVec 32) :
    (u.reply c d).trace = s.trace ++ .op w :: (es ++ [.ret c d]) := by
  rw [Machine.reply_trace, h.trace, log_trace]
  simp

/-! ## The bracket discipline (R88, R190, R191, R343) -/

/-- An operation begins and ends outside a bracket, so around a body that keeps the discipline it keeps it. -/
theorem frameScan_operation {es : List Event} (h : frameScan es false .high = some (false, .high)) (w : CommandWord) (c : Code)
    (d : BitVec 32) : frameScan (.op w :: (es ++ [.ret c d])) false .high = some (false, .high) := by
  simp [frameScan, frameStep, frameScan_append, h]

/-- Settles O22: a refusal and an unwritten read append `OP` alone, and every body keeps the discipline (`Runs.frames`). -/
theorem everyOperationKeepsTheBracketDiscipline : Obligations.EveryOperationKeepsTheBracketDiscipline := by
  intro i s t hi h
  obtain ⟨w, rfl | rfl | ⟨u, es, gs, c, d, hr, rfl⟩⟩ := exec_host_next hi h
  · exact ⟨[.op w], rfl, rfl⟩
  · exact ⟨[.op w], rfl, rfl⟩
  · exact ⟨_, hr.reply_trace c d, frameScan_operation hr.frames w c d⟩

/-! ## The clock (R74) -/

/-- From `s` to `t` the trace grows by events whose clock readings continue, without decreasing, from the last reading of `s`, and the last
of them is the last reading of `t`. -/
def ReadsOnward (s t : State) : Prop :=
  ∃ events, t.trace = s.trace ++ events ∧ List.IsChain (· ≤ ·) (s.env.now :: clockReadings events) ∧
    t.env.now = (clockReadings events).getLastD s.env.now

/-- Events without a clock reading leave the last reading as it was. -/
theorem ReadsOnward.of_no_reading {s t : State} {es : List Event} (htr : t.trace = s.trace ++ es) (hes : clockReadings es = [])
    (hn : t.env.now = s.env.now) : ReadsOnward s t :=
  ⟨es, htr, by simp [hes], by simp [hes, hn]⟩

theorem clockReadings_bus {es : List Event} (h : ∀ e ∈ es, (∃ b, e = .tx b) ∨ (∃ d, e = .delay d) ∨ ∃ b r, e = .xfer b r) :
    clockReadings es = [] := by
  induction es with
  | nil => rfl
  | cons e es ih =>
    have hes := ih fun x hx => h x (List.mem_cons_of_mem e hx)
    obtain ⟨b, rfl⟩ | ⟨d, rfl⟩ | ⟨b, r, rfl⟩ := h e List.mem_cons_self <;> exact hes

/-- `OP` and `RET` are no clock readings, so an operation reads the clock as its body does. -/
theorem clockReadings_operation (es : List Event) (w : CommandWord) (c : Code) (d : BitVec 32) :
    clockReadings (.op w :: (es ++ [.ret c d])) = clockReadings es := by
  simp [clockReadings]

theorem refuse_readsOnward (w : CommandWord) (s : State) : ReadsOnward s (s.refuse w) :=
  .of_no_reading (es := [.op w]) rfl rfl rfl

theorem markFault_readsOnward (w : CommandWord) (s : State) : ReadsOnward s (s.markFault w) :=
  .of_no_reading (es := [.op w]) rfl rfl rfl

theorem Runs.reply_readsOnward {s u : State} {w : CommandWord} {es : List Event} {gs : List (List Byte)}
    (h : Runs (s.log (.op w)) u es gs) (c : Code) (d : BitVec 32) : ReadsOnward s (u.reply c d) := by
  refine ⟨_, h.reply_trace c d, ?_, ?_⟩ <;> rw [clockReadings_operation]
  · exact h.clock
  · exact h.now

theorem exec_readsOnward {i : Instr} {s t : State} (h : exec i s = .next t) : ReadsOnward s t := by
  cases hi : i.isHost with
  | false =>
    obtain ⟨u, es, hu, htr, hes, -, hn, -⟩ := exec_bus_next i s hi
    rw [hu] at h
    cases h
    exact .of_no_reading htr (clockReadings_bus hes) hn
  | true =>
    obtain ⟨w, rfl | rfl | ⟨u, es, gs, c, d, hr, rfl⟩⟩ := exec_host_next hi h
    · exact refuse_readsOnward w s
    · exact markFault_readsOnward w s
    · exact hr.reply_readsOnward c d

theorem runCommand_readsOnward {c : Command} {s t : State} (h : runCommand c s = .next t) : ReadsOnward s t := by
  unfold runCommand at h
  split at h
  · exact exec_readsOnward h
  · cases c with
    | host w => cases h; exact refuse_readsOnward w s
    | bus bytes => cases h

/-- Settles O18: with an empty port nothing is read, and taking a command off the port changes neither trace nor clock. -/
theorem clockReadingsNeverDecrease : Obligations.ClockReadingsNeverDecrease := by
  intro s t h
  obtain ⟨-, ⟨-, rfl⟩ | ⟨c, rest, -, hrun⟩⟩ := step_cases h
  · exact ReadsOnward.of_no_reading (es := []) (List.append_nil _).symm rfl rfl
  · have hread := runCommand_readsOnward hrun
    exact hread

end Sys2Proof.Machine


/-! The family of spec/30_encoding.md: the decoder and the encoder are inverse (R100 to R106, R120 to R123), a host word is accepted exactly
by its row of the opcode table (R106), a refused word only sets the mark (R118), and the result word's layout (R107, R112). -/

namespace Sys2Proof

/-! ## Host words (R100 to R106) -/

/-- The opcodes of R105 as the opcode table numbers them. -/
def knownOpcodes : List Nat := [1, 2, 3, 4, 5, 6, 7, 8, 16, 17, 18, 19, 20, 21]

/-- A word whose `RSV` is zero is the one built from its other four fields. -/
theorem hostWord_of_fields {w : CommandWord} {o a b : BitVec 8} {t : BitVec 32} (ho : opcOf w = o) (ha : aOf w = a) (hb : bOf w = b)
    (hr : rsvOf w = 0) (ht : tOf w = t) : hostWord o a b t = w := by
  rw [← ho, ← ha, ← hb, ← ht, hostWord_fields w hr]

/-- What decoding a host word can do: the opcode is in the table and the word is accepted under a check that makes it the
instruction's own word, or the opcode is reserved. -/
theorem decodeHost_cases (w : CommandWord) :
    ((opcOf w).toNat ∈ knownOpcodes ∧
        ∃ zero i, decodeHost w = acceptIf zero i ∧ i.isHost = true ∧ (zero = true → encode i = .host w)) ∨
      ((opcOf w).toNat ∉ knownOpcodes ∧ decodeHost w = .error .reservedOpcode) := by
  have opc {k : Nat} (hk : (opcOf w).toNat = k) : opcOf w = BitVec.ofNat 8 k := by rw [← hk, BitVec.ofNat_toNat, BitVec.setWidth_eq]
  unfold decodeHost
  split
  case h_15 => exact .inr ⟨by simp_all [knownOpcodes], rfl⟩
  all_goals
    rename_i hk
    refine .inl ⟨by simp [hk, knownOpcodes], _, _, rfl, rfl, fun hz => ?_⟩
    simp only [Bool.and_eq_true, beq_iff_eq] at hz
    refine congrArg Command.host (hostWord_of_fields (opc hk) ?_ ?_ ?_ ?_) <;> simp [hz, updateLocalByte_of_rest]

theorem acceptIf_ne_reservedOpcode (zero : Bool) (i : Instr) : acceptIf zero i ≠ .error .reservedOpcode := by
  simp [acceptIf_error]

/-- A word is a reserved opcode exactly when its opcode is none of R105. -/
theorem decodeHost_reservedOpcode_iff (w : CommandWord) :
    decodeHost w = .error .reservedOpcode ↔ (opcOf w).toNat ∉ knownOpcodes := by
  obtain ⟨hk, zero, i, hd, -, -⟩ | ⟨hk, hd⟩ := decodeHost_cases w
  · simp [hd, hk, acceptIf_ne_reservedOpcode]
  · simp [hd, hk]

/-- What a host word decodes to is a host operation, whose word it is. -/
theorem decodeHost_ok {w : CommandWord} {i : Instr} (h : decodeHost w = .ok i) : i.isHost = true ∧ encode i = .host w := by
  obtain ⟨-, zero, j, hd, hj, he⟩ | ⟨-, hd⟩ := decodeHost_cases w
  · obtain ⟨hz, rfl⟩ := (acceptIf_ok zero j i).1 (hd.symm.trans h)
    exact ⟨hj, he hz⟩
  · simp [hd] at h

/-- A host word has two ways to be refused (R106). -/
theorem decodeHost_error {w : CommandWord} {e : DecodeError} (h : decodeHost w = .error e) :
    e = .reservedOpcode ∨ e = .reservedField := by
  obtain ⟨-, zero, i, hd, -, -⟩ | ⟨-, hd⟩ := decodeHost_cases w
  · exact .inr ((acceptIf_error zero i e).1 (hd.symm.trans h)).2
  · rw [hd] at h
    cases h
    exact .inl rfl

/-- The word of a host operation decodes to it: every field is read back from its place. -/
theorem decodeHost_encode {i : Instr} {w : CommandWord} (h : encode i = .host w) : decodeHost w = .ok i := by
  cases i with
  | readSettings u timeout =>
    cases h
    simp [decodeHost, opcOf_hostWord, aOf_hostWord, bOf_hostWord, rsvOf_hostWord, tOf_hostWord, acceptIf, updateLocalByte_bit,
      updateLocalByte_rest]
  | wreg _ _ _ | rreg _ _ | sync | wakeup | rdata => cases h
  | beginReset | beginWriteSettings timeout | beginCapture timeout | continueCapture | endCapture | update | blockingInit timeout
  | rdreg sel | wrreg sel val | rdchan idx | wrchan idx val | rdres idx | takeNewData =>
    cases h
    simp [decodeHost, opcOf_hostWord, aOf_hostWord, bOf_hostWord, rsvOf_hostWord, tOf_hostWord, acceptIf]

/-! ## The rows of the opcode table (R106)

The masks of `hostRows` are of five kinds: every field zero, a timeout, `update_local` and a timeout, one operand, two operands. Each
kind makes a word the one built from its opcode and the operands its mask does not cover. -/

theorem and_ones8 (b : BitVec 8) : b &&& 0xFF = b := BitVec.and_allOnes

/-- The opcode and `RSV` are in the mask of every row, and all of a pattern but its opcode is zero. -/
theorem fields_of_row {w mask : CommandWord} {o m2 m3 : BitVec 8} {m5 : BitVec 32} (h : w &&& mask = hostWord o 0 0 0)
    (hm : (0xFF : BitVec 8) ++ m2 ++ m3 ++ (0xFF : BitVec 8) ++ m5 = mask) :
    opcOf w = o ∧ aOf w &&& m2 = 0 ∧ bOf w &&& m3 = 0 ∧ rsvOf w = 0 ∧ tOf w &&& m5 = 0 := by
  have hf := (row_iff_fields w 0xFF m2 m3 0xFF o 0 0 0 m5 0 mask (hostWord o 0 0 0) hm rfl).1 h
  rwa [and_ones8, and_ones8] at hf

theorem updateLocal_of_masked {b : BitVec 8} (h : b &&& 0xFE = 0) : updateLocalByte (b.extractLsb' 0 1) = b := by
  revert b
  decide

theorem hostWord_of_bareRow {w : CommandWord} {o : BitVec 8} (h : w &&& 0xFFFFFFFFFFFFFFFF = hostWord o 0 0 0) :
    hostWord o 0 0 0 = w := by
  rw [← h]
  exact BitVec.and_allOnes

theorem hostWord_of_timeoutRow {w : CommandWord} {o : BitVec 8} (h : w &&& 0xFFFFFFFF00000000 = hostWord o 0 0 0) :
    hostWord o 0 0 (tOf w) = w := by
  obtain ⟨ho, ha, hb, hr, -⟩ := fields_of_row (m2 := 0xFF) (m3 := 0xFF) (m5 := 0) h (by decide)
  exact hostWord_of_fields ho ((and_ones8 _).symm.trans ha) ((and_ones8 _).symm.trans hb) hr rfl

theorem hostWord_of_updateLocalRow {w : CommandWord} {o : BitVec 8} (h : w &&& 0xFFFFFEFF00000000 = hostWord o 0 0 0) :
    hostWord o 0 (updateLocalByte ((bOf w).extractLsb' 0 1)) (tOf w) = w := by
  obtain ⟨ho, ha, hb, hr, -⟩ := fields_of_row (m2 := 0xFF) (m3 := 0xFE) (m5 := 0) h (by decide)
  exact hostWord_of_fields ho ((and_ones8 _).symm.trans ha) (updateLocal_of_masked hb).symm hr rfl

theorem hostWord_of_oneOperandRow {w : CommandWord} {o : BitVec 8} (h : w &&& 0xFF00FFFFFFFFFFFF = hostWord o 0 0 0) :
    hostWord o (aOf w) 0 0 = w := by
  obtain ⟨ho, -, hb, hr, ht⟩ := fields_of_row (m2 := 0) (m3 := 0xFF) (m5 := 0xFFFFFFFF) h (by decide)
  exact hostWord_of_fields ho rfl ((and_ones8 _).symm.trans hb) hr (BitVec.and_allOnes.symm.trans ht)

theorem hostWord_of_twoOperandRow {w : CommandWord} {o : BitVec 8} (h : w &&& 0xFF0000FFFFFFFFFF = hostWord o 0 0 0) :
    hostWord o (aOf w) (bOf w) 0 = w := by
  obtain ⟨ho, -, -, hr, ht⟩ := fields_of_row (m2 := 0) (m3 := 0) (m5 := 0xFFFFFFFF) h (by decide)
  exact hostWord_of_fields ho rfl rfl hr (BitVec.and_allOnes.symm.trans ht)

/-- A word of a row is the word of an instruction. -/
theorem exists_encode_of_row {w : CommandWord} {row : HostRow} (hrow : row ∈ hostRows) (h : w &&& row.mask = row.pattern) :
    ∃ i, encode i = .host w := by
  simp only [hostRows, List.cons_append, List.nil_append, List.mem_cons, List.not_mem_nil, or_false] at hrow
  obtain rfl | rfl | rfl | rfl | rfl | rfl | rfl | rfl | rfl | rfl | rfl | rfl | rfl | rfl := hrow
  · exact ⟨.beginReset, congrArg _ (hostWord_of_bareRow h)⟩
  · exact ⟨.beginWriteSettings _, congrArg _ (hostWord_of_timeoutRow h)⟩
  · exact ⟨.readSettings _ _, congrArg _ (hostWord_of_updateLocalRow h)⟩
  · exact ⟨.beginCapture _, congrArg _ (hostWord_of_timeoutRow h)⟩
  · exact ⟨.continueCapture, congrArg _ (hostWord_of_bareRow h)⟩
  · exact ⟨.endCapture, congrArg _ (hostWord_of_bareRow h)⟩
  · exact ⟨.update, congrArg _ (hostWord_of_bareRow h)⟩
  · exact ⟨.blockingInit _, congrArg _ (hostWord_of_timeoutRow h)⟩
  · exact ⟨.rdreg _, congrArg _ (hostWord_of_oneOperandRow h)⟩
  · exact ⟨.wrreg _ _, congrArg _ (hostWord_of_twoOperandRow h)⟩
  · exact ⟨.rdchan _, congrArg _ (hostWord_of_oneOperandRow h)⟩
  · exact ⟨.wrchan _ _, congrArg _ (hostWord_of_twoOperandRow h)⟩
  · exact ⟨.rdres _, congrArg _ (hostWord_of_oneOperandRow h)⟩
  · exact ⟨.takeNewData, congrArg _ (hostWord_of_bareRow h)⟩

/-- Every instruction's encoding lies in a row of the table: the family `TableRow`, case by case. -/
theorem encode_in_tableRow : ∀ i : Instr, Laws.TableRow.Statement i
  | .beginReset => Laws.TableRow.beginReset
  | .beginWriteSettings timeout => Laws.TableRow.beginWriteSettings timeout
  | .readSettings u timeout => Laws.TableRow.readSettings u timeout
  | .beginCapture timeout => Laws.TableRow.beginCapture timeout
  | .continueCapture => Laws.TableRow.continueCapture
  | .endCapture => Laws.TableRow.endCapture
  | .update => Laws.TableRow.update
  | .blockingInit timeout => Laws.TableRow.blockingInit timeout
  | .rdreg sel => Laws.TableRow.rdreg sel
  | .wrreg sel val => Laws.TableRow.wrreg sel val
  | .rdchan idx => Laws.TableRow.rdchan idx
  | .wrchan idx val => Laws.TableRow.wrchan idx val
  | .rdres idx => Laws.TableRow.rdres idx
  | .takeNewData => Laws.TableRow.takeNewData
  | .wreg r n values => Laws.TableRow.wreg r n values
  | .rreg r n => Laws.TableRow.rreg r n
  | .sync => Laws.TableRow.sync
  | .wakeup => Laws.TableRow.wakeup
  | .rdata => Laws.TableRow.rdata

theorem row_of_encode {i : Instr} {w : CommandWord} (h : encode i = .host w) : ∃ row ∈ hostRows, w &&& row.mask = row.pattern := by
  have hrow := encode_in_tableRow i
  rw [Laws.TableRow.Statement, h] at hrow
  exact hrow

/-- R106: a word is accepted exactly when a row matches it. -/
theorem decodeHost_accepts_iff (w : CommandWord) :
    (∃ i, decodeHost w = .ok i) ↔ ∃ row ∈ hostRows, w &&& row.mask = row.pattern := by
  constructor
  · rintro ⟨i, h⟩
    exact row_of_encode (decodeHost_ok h).2
  · rintro ⟨row, hrow, h⟩
    obtain ⟨i, hi⟩ := exists_encode_of_row hrow h
    exact ⟨i, decodeHost_encode hi⟩

/-- A word is refused for a field exactly when its opcode is known and it is not accepted. -/
theorem decodeHost_reservedField_iff (w : CommandWord) :
    decodeHost w = .error .reservedField ↔ (opcOf w).toNat ∈ knownOpcodes ∧ ¬ ∃ i, decodeHost w = .ok i := by
  have hop := decodeHost_reservedOpcode_iff w
  cases hd : decodeHost w with
  | ok i => simp
  | error e =>
    rw [hd] at hop
    obtain rfl | rfl := decodeHost_error hd <;> simpa using hop

/-- Settles O3: acceptance goes through the word of an instruction, and the two refusals through the cases of `decodeHost`. -/
theorem hostWordAcceptedExactlyByTableRow : Obligations.HostWordAcceptedExactlyByTableRow := by
  intro w known matched
  have haccept := decodeHost_accepts_iff w
  refine ⟨haccept, fun i h => (decodeHost_ok h).2, decodeHost_reservedOpcode_iff w, ?_⟩
  rw [decodeHost_reservedField_iff, haccept]
  exact Iff.rfl

/-! ## Bus commands (R120 to R123) -/

/-- Settles O4: the first byte tells the command apart from the other four, the count byte how many bytes are its own. -/
theorem busCommandReadBackBeforeAnyBytes : Obligations.BusCommandReadBackBeforeAnyBytes := by
  intro i bytes rest hw h
  cases i with
  | wreg r n values =>
    cases h
    have hlen : values.length = n.toNat + 1 := by simpa [Instr.wellFormed] using hw
    obtain ⟨hs, hk, hd⟩ := wregByte_distinct r
    simp [decodeBus, hs, hk, hd, regOf_wreg, countByte_high, regOf_countByte, ← hlen]
  | rreg r n =>
    cases h
    obtain ⟨hs, hk, hd, hwr⟩ := rregByte_distinct r r
    simp [decodeBus, hs, hk, hd, hwr, regOf_rreg, countByte_high, regOf_countByte]
  | sync | wakeup | rdata =>
    cases h
    simp [decodeBus, Config.cmdSync, Config.cmdWakeup, Config.cmdRdata]
  | beginReset | beginWriteSettings _ | readSettings _ _ | beginCapture _ | continueCapture | endCapture | update | blockingInit _
  | rdreg _ | wrreg _ _ | rdchan _ | wrchan _ _ | rdres _ | takeNewData => cases h

/-- Whatever is read off a list of bytes is well-formed, and the list begins with its encoding. -/
theorem decodeBus_ok {bytes rest : List Byte} {i : Instr} (h : decodeBus bytes = .ok (i, rest)) :
    i.wellFormed = true ∧ ∃ own, encode i = .bus own ∧ bytes = own ++ rest := by
  unfold decodeBus at h
  cases bytes with
  | nil => cases h
  | cons b0 tail =>
    simp only at h
    split_ifs at h with hs hk hd hw hr
    · cases h
      exact ⟨rfl, [Config.cmdSync], rfl, by rw [hs]; rfl⟩
    · cases h
      exact ⟨rfl, [Config.cmdWakeup], rfl, by rw [hk]; rfl⟩
    · cases h
      exact ⟨rfl, [Config.cmdRdata], rfl, by rw [hd]; rfl⟩
    · cases tail with
      | nil => cases h
      | cons b1 values =>
        simp only at h
        split_ifs at h with hc hlen
        cases h
        have hcount : countByte (regOf b1) = b1 := countByte_regOf b1 (by simpa using hc)
        refine ⟨?_, _, rfl, ?_⟩
        · simp only [Instr.wellFormed, List.length_take, beq_iff_eq]
          omega
        · rw [← hw, hcount, List.cons_append, List.cons_append, List.take_append_drop]
    · cases tail with
      | nil => cases h
      | cons b1 values =>
        simp only at h
        split_ifs at h with hc
        cases h
        have hcount : countByte (regOf b1) = b1 := countByte_regOf b1 (by simpa using hc)
        exact ⟨rfl, _, rfl, by rw [← hr, hcount]; rfl⟩

/-! ## Both directions -/

theorem decode_host (w : CommandWord) : decode (.host w) = decodeHost w := rfl

/-- The bytes at the port are one whole bus command, with nothing left over. -/
theorem decode_bus_ok_iff (bytes : List Byte) (i : Instr) : decode (.bus bytes) = .ok i ↔ decodeBus bytes = .ok (i, []) := by
  cases hb : decodeBus bytes with
  | error e => simp [decode, hb]
  | ok read => obtain ⟨j, _ | ⟨b, rest⟩⟩ := read <;> simp [decode, hb]

/-- Settles O1: a host word is read back field by field, a bus command as O4 reads it before no further bytes. -/
theorem decodeInvertsEncode : Obligations.DecodeInvertsEncode := by
  intro i hw
  cases h : encode i with
  | host w => exact decodeHost_encode h
  | bus bytes =>
    have hb := busCommandReadBackBeforeAnyBytes i bytes [] hw h
    rw [List.append_nil] at hb
    exact (decode_bus_ok_iff bytes i).2 hb

theorem wellFormed_of_isHost {i : Instr} (h : i.isHost = true) : i.wellFormed = true := by
  cases i with
  | wreg r n values => cases h
  | _ => rfl

/-- Settles O2: the decoder's cases, each with the fields that were checked to be zero put back. -/
theorem encodeInvertsDecode : Obligations.EncodeInvertsDecode := by
  intro c i h
  cases c with
  | host w =>
    obtain ⟨hi, he⟩ := decodeHost_ok h
    exact ⟨wellFormed_of_isHost hi, he⟩
  | bus bytes =>
    obtain ⟨hw, own, he, hown⟩ := decodeBus_ok ((decode_bus_ok_iff bytes i).1 h)
    exact ⟨hw, by rw [he, hown, List.append_nil]⟩

/-- Settles O5: each word written out is the encoding of its instruction. -/
theorem wordsOfTheSpecDecode : Obligations.WordsOfTheSpecDecode :=
  ⟨decodeHost_encode (by decide), decodeHost_encode (by decide), decodeHost_encode (by decide), decodeHost_encode (by decide),
    decodeHost_encode (by decide), decodeInvertsEncode (.wreg 1 0 [0x18]) rfl, decodeInvertsEncode (.rreg 0 3) rfl,
    decodeInvertsEncode .sync rfl⟩

end Sys2Proof

namespace Sys2Proof.Machine

/-! ## Refused words and the marks (R118, R274, R302) -/

/-- An operand is refused by the elements of the state, not by what waits at the port. -/
theorem refusedIn_withCommands {i : Instr} {s : State} (cs : List Command) (h : i.refusedIn s) :
    i.refusedIn { s with commands := cs } := by
  cases i <;> exact h

theorem runCommand_of_error {w : CommandWord} {e : DecodeError} (s : State) (h : decodeHost w = .error e) :
    runCommand (.host w) s = .next (s.refuse w) := by
  simp [runCommand, decode_host, h, refuseCommand]

theorem exec_refused {i : Instr} {w : CommandWord} {s : State} (h : decodeHost w = .ok i) (hr : i.refusedIn s) :
    exec i s = .next (s.refuse w) := by
  obtain ⟨hi, he⟩ := decodeHost_ok h
  obtain ⟨w', he', ⟨-, hx⟩ | ⟨hn, -⟩ | ⟨hn, -⟩⟩ := exec_host_cases i s hi
  · cases he.symm.trans he'
    exact hx
  · exact absurd hr hn
  · exact absurd hr hn

/-- Settles O8: whether the bits or the operand is refused, running the word is `State.refuse`. -/
theorem refusedWordOnlySetsTheMark : Obligations.RefusedWordOnlySetsTheMark := by
  intro s w rest hm hc hrefused
  rw [step_of_command hm hc]
  obtain ⟨e, he⟩ | ⟨i, hi, hr⟩ := hrefused
  · exact runCommand_of_error _ he
  · rw [runCommand_of_decode _ ((decode_host w).trans hi)]
    exact exec_refused hi (refusedIn_withCommands rest hr)

/-- Settles O10: the step tests the refused mark, then the fault mark, before it looks at the port. -/
theorem markedMachineTakesNoStep : Obligations.MarkedMachineTakesNoStep := by
  refine fun s => ⟨fun hr => ?_, fun hr hf => ?_⟩
  · rw [step, stepOf, if_pos hr]
  · rw [step, stepOf, if_neg (by simp [hr]), if_pos hf]

/-! ## The result word (R107, R112) -/

/-- Settles O13: `CODE` is the upper part of the concatenation and `DATA` the lower, and the codes' numbers are listed. -/
theorem resultWordLayout : Obligations.ResultWordLayout :=
  ⟨fun _ _ => ⟨BitVec.extractLsb'_append_eq_left, BitVec.extractLsb'_append_eq_right⟩, rfl⟩

end Sys2Proof.Machine


/-! The family of spec/40_state_machine.md: the frame of an operation (R146) and its preconditions (R142), the transition table (R140), and
the bounded ready-wait with its three ends (R143 to R145). -/

namespace Sys2Proof.Machine

/-! ## The frame and the preconditions (R142, R146) -/

theorem isHost_of_encode {i : Instr} {w : CommandWord} (h : encode i = .host w) : i.isHost = true := by
  cases i with
  | wreg _ _ _ | rreg _ _ | sync | wakeup | rdata => cases h
  | _ => rfl

/-- Settles O12: neither refused nor an unwritten read, the operation runs a body that appends inner events only. -/
theorem operationFrame : Obligations.OperationFrame := by
  intro i s t w hw hr hu h
  obtain ⟨w', hw', ⟨hr', -⟩ | ⟨-, hu', -⟩ | ⟨-, -, body, he, hb⟩⟩ := exec_host_cases i s (isHost_of_encode hw)
  · exact absurd hr' hr
  · exact absurd hu' hu
  · cases hw.symm.trans hw'
    rw [he] at h
    obtain ⟨es, gs, hruns⟩ := hb (s.log (.op w))
    rw [hostOp_eq_next h]
    refine ⟨es, _, _, hruns.reply_trace _ _, fun e hmem w' c' d' => ?_, ?_⟩
    · have hin := hruns.inner e hmem
      constructor <;> rintro rfl <;> cases hin
    · rw [reply_results, hruns.results, log_results]

/-- A body that stops at its precondition leaves `OP` and `RET` alone (R142). -/
theorem hostOp_of_precondition {w : CommandWord} {body : State → Reply} {s : State} {c : Code}
    (h : body (s.log (.op w)) = replyCode c (s.log (.op w))) : hostOp w body s = .next (s.ran w [] c 0) := by
  rw [hostOp_next w body s (.inr (by rw [h]; rfl)), h]
  simp [replyCode, State.reply, State.log, State.ran]

/-- Settles O26: each body tests its precondition before it does anything else. -/
theorem preconditionFailureIsANoOp : Obligations.PreconditionFailureIsANoOp := by
  intro s timeout u
  refine ⟨fun hn => hostOp_of_precondition ?_, fun hp => ⟨hostOp_of_precondition ?_, hostOp_of_precondition ?_,
    hostOp_of_precondition ?_⟩, fun hp => hostOp_of_precondition ?_⟩
  · simp only [beginResetBody, log_params, hn]
  · exact if_pos hp
  · exact if_pos hp
  · exact if_pos hp
  · exact if_pos hp

/-! ## Every instruction answers (R145, R146) -/

theorem beginResetBody_notByFairness (s : State) : (beginResetBody s).byFairness = false := by
  unfold beginResetBody
  split <;> rfl

theorem endCaptureBody_notByFairness (s : State) : (endCaptureBody s).byFairness = false := by
  unfold endCaptureBody
  split <;> rfl

/-- A body without a wait always answers. -/
theorem hostOp_answers {body : State → Reply} (hb : ∀ u, (body u).byFairness = false) (w : CommandWord) (s : State) :
    ∃ t, hostOp w body s = .next t :=
  ⟨_, hostOp_next w body s (.inr (hb _))⟩

/-- So does one behind a check, whose other branch is a refusal or a mark. -/
theorem guarded_answers {p : Prop} [Decidable p] {body : State → Reply} (hb : ∀ u, (body u).byFairness = false) (w : CommandWord)
    (s r : State) : ∃ t, (if p then hostOp w body s else .next r) = .next t := by
  split
  · exact hostOp_answers hb w s
  · exact ⟨r, rfl⟩

/-- A body that waits answers or is stuck in an environment that is not fair. -/
theorem hostOp_answers_or_stuck (w : CommandWord) (body : State → Reply) (s : State) :
    (∃ t, hostOp w body s = .next t) ∨ (hostOp w body s = .fault .waitNeverEnds ∧ s.env.fair = false) :=
  (hostOp_cases w body s).imp (fun h => ⟨_, h⟩) fun ⟨h, hf, _⟩ => ⟨h, hf⟩

/-- Settles O11: four bodies wait and may be stuck; every other arm is a body without a wait, a refusal, a mark or a bus command. -/
theorem everyInstructionAnswers : Obligations.EveryInstructionAnswers := by
  intro i s
  cases i with
  | beginWriteSettings timeout =>
    exact (hostOp_answers_or_stuck _ _ s).imp_right fun ⟨h, hf⟩ => ⟨h, hf, timeout, .inl rfl⟩
  | readSettings u timeout =>
    exact (hostOp_answers_or_stuck _ _ s).imp_right fun ⟨h, hf⟩ => ⟨h, hf, timeout, .inr (.inl ⟨u, rfl⟩)⟩
  | beginCapture timeout =>
    exact (hostOp_answers_or_stuck _ _ s).imp_right fun ⟨h, hf⟩ => ⟨h, hf, timeout, .inr (.inr (.inl rfl))⟩
  | blockingInit timeout =>
    exact (hostOp_answers_or_stuck _ _ s).imp_right fun ⟨h, hf⟩ => ⟨h, hf, timeout, .inr (.inr (.inr rfl))⟩
  | beginReset => exact .inl (hostOp_answers beginResetBody_notByFairness _ s)
  | endCapture => exact .inl (hostOp_answers endCaptureBody_notByFairness _ s)
  | update => rw [exec, execUpdate]; exact .inl (hostOp_answers (fun _ => rfl) _ s)
  | takeNewData => rw [exec, execTakeNewData]; exact .inl (hostOp_answers (fun _ => rfl) _ s)
  | continueCapture | wrreg _ _ | rdchan _ | wrchan _ _ => exact .inl (guarded_answers (fun _ => rfl) _ s _)
  | rdreg sel =>
    rw [exec, execRdreg]
    split
    · exact .inl (hostOp_answers (fun _ => rfl) _ s)
    · exact .inl ⟨_, rfl⟩
  | rdres idx =>
    rw [exec, execRdres]
    split
    · exact .inl (guarded_answers (fun _ => rfl) _ s _)
    · exact .inl ⟨_, rfl⟩
  | wreg _ _ _ | rreg _ _ | sync | wakeup | rdata => exact .inl ⟨_, rfl⟩

/-! ## The transition table (R140) -/

theorem beginResetBody_phase (s : State) :
    (beginResetBody s).st.phase = if s.params.resetStrategy = .none then s.phase else .resetting := by
  cases hs : s.params.resetStrategy <;> simp [beginResetBody, hs, replyCode, rearm_eq]

theorem endCaptureBody_phase (s : State) :
    (endCaptureBody s).st.phase = if s.phase = .capturing then .finishingCapture else s.phase := by
  by_cases hp : s.phase = .capturing <;> simp [endCaptureBody, hp, replyCode]

/-- A pipelined step outside `Capturing` is the drain step (R233). -/
theorem pipelinedStep_phase (s : State) : s.pipelinedStep.phase = if s.phase = .capturing then .capturing else .idle := by
  by_cases hp : s.phase = .capturing <;> by_cases hc : s.curMux = Config.sentinel
  · rw [pipelinedStep_first s hp hc, if_pos hp, hp]
  · rw [pipelinedStep_next s hp hc, if_pos hp, hp]
  · rw [pipelinedStep_drain_empty s hp hc, if_neg hp]
  · rw [pipelinedStep_drain s hp hc, if_neg hp]

/-- `UPDATE` changes `STATE` on a `LOW` sample only, and only to `Idle` (R240). -/
theorem update_phase_cases (s : State) :
    s.update.phase = s.phase ∨ (s.env.nextReady = .low ∧ s.update.phase = .idle ∧
      ((s.phase = .resetting ∨ s.phase = .writingSettings) ∨ s.phase = .finishingCapture)) := by
  cases hp : s.phase with
  | uninitialized | idle => rw [update_noop s (by simp [hp])]; exact .inl hp
  | resetting | writingSettings =>
    rw [update_sampling s (by simp [hp])]
    cases hr : s.env.nextReady <;> simp [hp]
  | capturing | finishingCapture =>
    rw [update_stepping s (by simp [hp])]
    cases hr : s.env.nextReady <;> simp [hp, pipelinedStep_phase]

theorem hostOp_phase {w : CommandWord} {body : State → Reply} {s t : State} (h : hostOp w body s = .next t) :
    t.phase = (body (s.log (.op w))).st.phase := by
  rw [hostOp_eq_next h, reply_phase]

/-- An operation that waits changes `STATE` only when its wait returned `READY`, as its action does (R143, R144). -/
theorem hostOp_wait_phase {w : CommandWord} {timeout : BitVec 32} {c : Code} {act : State → Reply} {s t : State} {p : Phase}
    (h : hostOp w (waitThen timeout.toNat c act) s = .next t) (ha : ∀ u, (act u).st.phase = p) (hne : t.phase ≠ s.phase) :
    (waitOf w timeout s).ready = true ∧ t.phase = p := by
  have ht := hostOp_phase h
  cases hr : (waitOf w timeout s).ready with
  | true =>
    rw [waitThen_ready _ _ _ _ hr, ha] at ht
    exact ⟨rfl, ht⟩
  | false =>
    rw [waitThen_timeout _ _ _ _ hr, (readyWait_sameButInputs _ _).1] at ht
    exact absurd ht hne

/-- Settles O19: `STATE` is written by the operations of its list only, and each of them writes it as its row says. -/
theorem stateChangesOnlyByTheTable : Obligations.StateChangesOnlyByTheTable := by
  intro i s t hinit h hne
  have hmem := (exec_writes h).mem_of_ne .phase hne
  obtain rfl | rfl | rfl | rfl | ⟨timeout, rfl | rfl | rfl⟩ := phase_mem_writeList hmem
  · have ht := (hostOp_phase h).trans (beginResetBody_phase _)
    split at ht
    · exact absurd ht hne
    · next hs => exact .inl ⟨rfl, hs, ht⟩
  · rw [exec, execUpdate] at h
    have ht := hostOp_phase h
    obtain hk | ⟨hlow, hidle, hp | hp⟩ := update_phase_cases (s.log (.op (hostWord 0x07 0 0 0)))
    · exact absurd (ht.trans hk) hne
    · exact .inr (.inl ⟨rfl, hlow, hp, ht.trans hidle⟩)
    · exact .inr (.inr (.inr (.inr (.inr ⟨.inl ⟨rfl, hlow⟩, hp, ht.trans hidle⟩))))
  · rw [exec, execContinueCapture] at h
    split at h
    · next hp =>
      have ht := (hostOp_phase h).trans (pipelinedStep_phase _)
      obtain hp | hp := hp
      · rw [log_phase, if_pos hp] at ht
        exact absurd (ht.trans hp.symm) hne
      · rw [log_phase, if_neg (by simp [hp])] at ht
        exact .inr (.inr (.inr (.inr (.inr ⟨.inr rfl, hp, ht⟩))))
    · cases h; exact absurd rfl hne
  · have ht := (hostOp_phase h).trans (endCaptureBody_phase _)
    split at ht
    · next hp => exact .inr (.inr (.inr (.inr (.inl ⟨rfl, hp, ht⟩))))
    · exact absurd ht hne
  · have hp : s.phase = .idle := by simpa [writeList] using hmem
    rw [exec_beginWriteSettings_idle timeout s hp] at h
    obtain ⟨hr, ht⟩ := hostOp_wait_phase h (fun u => rfl) hne
    exact .inr (.inr (.inl ⟨timeout, rfl, hp, hr, ht⟩))
  · have hp : s.phase = .idle := by simpa [writeList] using hmem
    rw [exec_beginCapture_idle timeout s hp] at h
    obtain ⟨hr, ht⟩ := hostOp_wait_phase h (fun u => pipelinedStep_phase (u.enter .capturing)) hne
    exact .inr (.inr (.inr (.inl ⟨timeout, rfl, hp, hr, ht⟩)))
  · exact absurd rfl (hinit timeout)

/-! ## How a wait ends (R143) -/

/-- A sample that does not qualify: the line `HIGH`, or a reading that has not expired. -/
def PassedBy (cmp : WaitCmp) (t0 timeout : Nat) (e : Event) : Prop :=
  e = .drdy .high ∨ ∃ t, e = .now t ∧ expired cmp (t - t0) timeout = false

/-- From `s` the wait took samples that do not qualify, then one that does, and answered what that one stands for. -/
def EndsFrom (t0 timeout : Nat) (s : State) (w : WaitEnd) : Prop :=
  ∃ before last, w.st.trace = s.trace ++ (before ++ [last]) ∧
    (∀ e ∈ before, PassedBy s.params.waitCmp t0 timeout e) ∧
    (w.ready = true → last = .drdy .low) ∧
    (w.ready = false → ∃ t, last = .now t ∧ expired s.params.waitCmp (t - t0) timeout = true)

theorem endsFrom_low {t0 timeout : Nat} {s u : State} {byFairness : Bool} (hu : u.trace = s.trace ++ [.drdy .low]) :
    EndsFrom t0 timeout s ⟨true, u, byFairness⟩ :=
  ⟨[], .drdy .low, hu, by simp, fun _ => rfl, by simp⟩

theorem endsFrom_expired {t0 timeout t : Nat} {s u : State} {byFairness : Bool} (hu : u.trace = s.trace ++ [.now t])
    (ht : expired s.params.waitCmp (t - t0) timeout = true) : EndsFrom t0 timeout s ⟨false, u, byFairness⟩ :=
  ⟨[], .now t, hu, by simp, by simp, fun _ => ⟨t, rfl, ht⟩⟩

/-- A sample that does not qualify before a wait that ends leaves a wait that ends. -/
theorem EndsFrom.after {t0 timeout : Nat} {s u : State} {w : WaitEnd} {e : Event} (h : EndsFrom t0 timeout u w)
    (hp : u.params = s.params) (hu : u.trace = s.trace ++ [e]) (he : PassedBy s.params.waitCmp t0 timeout e) :
    EndsFrom t0 timeout s w := by
  obtain ⟨before, last, htr, hb, hl⟩ := h
  rw [hp] at hb hl
  exact ⟨e :: before, last, by rw [htr, hu]; simp, List.forall_mem_cons.2 ⟨he, hb⟩, hl⟩

theorem waitOut_endsFrom (t0 timeout : Nat) (s : State) : EndsFrom t0 timeout s (waitOut t0 timeout s) :=
  endsFrom_expired (t := (s.nowFrom (deadline s.params.waitCmp t0 timeout)).1) rfl
    (expired_of_deadline _ _ _ _ (Nat.le_add_right_of_le (Nat.le_max_right _ _)))

theorem waitClock_endsFrom (t0 timeout pending : Nat) (s : State) : EndsFrom t0 timeout s (waitClock t0 timeout pending s) := by
  induction pending generalizing s with
  | zero => exact waitOut_endsFrom t0 timeout s
  | succ pending ih =>
    rw [waitClock_succ]
    split
    · next hx => exact endsFrom_expired rfl hx
    · next hx => exact (ih s.nowMs.2).after rfl rfl (.inr ⟨_, rfl, Bool.eq_false_iff.2 hx⟩)

theorem waitLoop_endsFrom (t0 timeout fuel : Nat) (s : State) : EndsFrom t0 timeout s (waitLoop t0 timeout fuel s) := by
  induction fuel generalizing s with
  | zero => exact waitClock_endsFrom t0 timeout _ s
  | succ fuel ih =>
    rw [waitLoop_succ]
    split
    · have hd : s.chooseSample.2.drdy.2.trace = s.trace ++ [.drdy s.chooseSample.2.drdy.1] := rfl
      split
      · next hl => exact endsFrom_low (hl ▸ hd)
      · next hl => exact (ih _).after rfl (hl ▸ hd) (.inl rfl)
    · split
      · next hx => exact endsFrom_expired rfl hx
      · next hx => exact (ih s.chooseSample.2.nowMs.2).after rfl rfl (.inr ⟨_, rfl, Bool.eq_false_iff.2 hx⟩)

/-- A wait is its first reading `t0`, then its loop. -/
theorem readyWait_endsFrom (timeout : Nat) (s : State) : EndsFrom s.nowMs.1 timeout s.nowMs.2 (readyWait timeout s) :=
  waitLoop_endsFrom _ _ _ _

/-- Settles O27: the loop ends at its first qualifying sample, and a wait changes the trace and the inputs only. -/
theorem waitEndsAtTheFirstQualifyingSample : Obligations.WaitEndsAtTheFirstQualifyingSample := by
  intro timeout s
  obtain ⟨hst, hfair⟩ := readyWait_sameButInputs timeout s
  obtain ⟨before, last, htr, hb, hready, htimeout⟩ := readyWait_endsFrom timeout s
  refine ⟨hst, hfair, s.nowMs.1, before, last, ?_, hb, hready, htimeout⟩
  rw [htr]
  exact List.append_assoc s.trace [.now s.nowMs.1] (before ++ [last])

/-! ## A wait takes any sequence of samples (R143, R14) -/

/-- The levels of the ready-line samples in a list of events. -/
def levelSamples : List Event → List Level
  | [] => []
  | .drdy l :: rest => l :: levelSamples rest
  | _ :: rest => levelSamples rest

/-- Which input each sample in a list of events was taken from. -/
def sampleKinds : List Event → List Sample
  | [] => []
  | .drdy _ :: rest => .readyLine :: sampleKinds rest
  | .now _ :: rest => .clock :: sampleKinds rest
  | _ :: rest => sampleKinds rest

/-- The advances of a clock that stands at `now` and then gives the readings listed. -/
def advances : Nat → List Nat → List Nat
  | _, [] => []
  | now, t :: rest => (t - now) :: advances t rest

/-- The pending draws are those of the samples listed. -/
def Env.Pending (e : Env) (es : List Event) : Prop :=
  e.ready = levelSamples es ∧ e.ticks = advances e.now (clockReadings es) ∧ e.order = sampleKinds es

theorem nowMs_of_pending_tick {s : State} {t : Nat} {rest : List Nat} (h : s.env.ticks = (t - s.env.now) :: rest)
    (hle : s.env.now ≤ t) : s.nowMs = (t, { s with
      trace := s.trace ++ [.now t], env := { s.env with now := t, ticks := rest, count := s.env.count + 1 } }) := by
  rw [nowMs_eq, h]
  simp [drawn, Nat.add_sub_of_le hle]

/-- A round of a wait with a sample of the line first among the pending draws. -/
theorem chooseSample_of_pending_level {s : State} {l : Level} {es : List Event} (h : s.env.Pending (.drdy l :: es)) :
    ∃ u, s.chooseSample.1 = .readyLine ∧ s.chooseSample.2.drdy = (l, u) ∧ u.env.Pending es ∧ u.params = s.params ∧
      u.trace = s.trace ++ [.drdy l] ∧ u.env.now = s.env.now := by
  obtain ⟨hr, ht, ho⟩ := h
  refine ⟨s.chooseSample.2.drdy.2, ?_, ?_, ⟨?_, ht, ?_⟩, rfl, ?_, rfl⟩ <;>
    simp [State.chooseSample, State.drdy, drawn, hr, ho, levelSamples, sampleKinds]

/-- A round of a wait with a sample of the clock first among the pending draws. -/
theorem chooseSample_of_pending_reading {s : State} {t : Nat} {es : List Event} (h : s.env.Pending (.now t :: es))
    (hle : s.env.now ≤ t) :
    ∃ u, s.chooseSample.1 = .clock ∧ s.chooseSample.2.nowMs = (t, u) ∧ u.env.Pending es ∧ u.params = s.params ∧
      u.trace = s.trace ++ [.now t] ∧ u.env.now = t := by
  obtain ⟨hr, ht, ho⟩ := h
  refine ⟨_, ?_, nowMs_of_pending_tick ht hle, ⟨hr, rfl, ?_⟩, rfl, rfl, rfl⟩ <;> simp [State.chooseSample, drawn, ho, sampleKinds]

/-- A sample that ends a wait (R143): the line `LOW`, or a reading that has expired. -/
def Qualifies (cmp : WaitCmp) (t0 timeout : Nat) (e : Event) : Prop :=
  e = .drdy .low ∨ ∃ t, e = .now t ∧ expired cmp (t - t0) timeout = true

/-- With the draws of a legal sequence of samples pending and a round for each, the loop takes exactly that sequence. -/
theorem waitLoop_of_pending {t0 timeout fuel : Nat} {s : State} {before : List Event} {last : Event} (hf : before.length < fuel)
    (hb : ∀ e ∈ before, PassedBy s.params.waitCmp t0 timeout e) (hl : Qualifies s.params.waitCmp t0 timeout last)
    (hc : List.IsChain (· ≤ ·) (s.env.now :: clockReadings (before ++ [last]))) (hp : s.env.Pending (before ++ [last])) :
    (waitLoop t0 timeout fuel s).st.trace = s.trace ++ (before ++ [last]) ∧ (waitLoop t0 timeout fuel s).byFairness = false := by
  induction before generalizing fuel s with
  | nil =>
    obtain ⟨fuel, rfl⟩ := Nat.exists_eq_succ_of_ne_zero (Nat.ne_zero_of_lt hf)
    rw [waitLoop_succ]
    obtain rfl | ⟨t, rfl, hx⟩ := hl
    · obtain ⟨u, hk, hd, -, -, htr, -⟩ := chooseSample_of_pending_level hp
      simp only [hk, hd]
      exact ⟨htr, trivial⟩
    · obtain ⟨u, hk, hn, -, -, htr, -⟩ := chooseSample_of_pending_reading hp (List.isChain_cons_cons.1 hc).1
      simp only [hk, hn, hx]
      exact ⟨htr, rfl⟩
  | cons e before ih =>
    obtain ⟨fuel, rfl⟩ := Nat.exists_eq_succ_of_ne_zero (Nat.ne_zero_of_lt hf)
    obtain ⟨he, hbs⟩ := List.forall_mem_cons.1 hb
    have hfs := Nat.lt_of_succ_lt_succ hf
    rw [waitLoop_succ]
    obtain rfl | ⟨t, rfl, hx⟩ := he
    · obtain ⟨u, hk, hd, hpu, hpar, htr, hnow⟩ := chooseSample_of_pending_level hp
      rw [← hpar] at hbs hl
      obtain ⟨h1, h2⟩ := ih hfs hbs hl (by rw [hnow]; exact hc) hpu
      simp only [hk, hd]
      exact ⟨by rw [h1, htr]; simp, h2⟩
    · obtain ⟨hle, hc⟩ := List.isChain_cons_cons.1 hc
      obtain ⟨u, hk, hn, hpu, hpar, htr, hnow⟩ := chooseSample_of_pending_reading hp hle
      rw [← hpar] at hbs hl
      obtain ⟨h1, h2⟩ := ih hfs hbs hl (by rw [hnow]; exact hc) hpu
      simp only [hk, hn, hx]
      exact ⟨by simp [h1, htr], h2⟩

/-- The environment of `e` with the draws of a wait pending: its first reading `t0`, then the samples listed. -/
def Env.withSamples (e : Env) (t0 : Nat) (es : List Event) : Env :=
  { e with ready := levelSamples es, ticks := (t0 - e.now) :: advances t0 (clockReadings es), order := sampleKinds es }

theorem nowMs_withSamples {s : State} {t0 : Nat} (es : List Event) (hle : s.env.now ≤ t0) :
    ∃ u, ({ s with env := s.env.withSamples t0 es } : State).nowMs = (t0, u) ∧ u.env.Pending es ∧ u.params = s.params ∧
      u.trace = s.trace ++ [.now t0] ∧ u.env.now = t0 :=
  ⟨_, nowMs_of_pending_tick rfl hle, ⟨rfl, rfl, rfl⟩, rfl, rfl, rfl⟩

/-- Each sample of a wait is drawn from one input, so the pending order has a round for every one of them. -/
theorem length_lt_sampleKinds {cmp : WaitCmp} {t0 timeout : Nat} {before : List Event} {last : Event}
    (hb : ∀ e ∈ before, PassedBy cmp t0 timeout e) (hl : Qualifies cmp t0 timeout last) :
    before.length < (sampleKinds (before ++ [last])).length := by
  induction before with
  | nil => obtain rfl | ⟨t, rfl, -⟩ := hl <;> exact Nat.zero_lt_one
  | cons e before ih =>
    obtain ⟨he, hbs⟩ := List.forall_mem_cons.1 hb
    obtain rfl | ⟨t, rfl, -⟩ := he <;> exact Nat.succ_lt_succ (ih hbs)

/-- Settles O28: the draws of the samples themselves make the wait take them, before its rounds are used up. -/
theorem waitAdmitsEverySampleOrder : Obligations.WaitAdmitsEverySampleOrder := by
  intro timeout s t0 before last cmp hb hl hc
  obtain ⟨hle, hc⟩ := List.isChain_cons_cons.1 hc
  have hrounds := length_lt_sampleKinds hb hl
  obtain ⟨u, hn, hp, hpar, htr, hnow⟩ := nowMs_withSamples (s := s) (before ++ [last]) hle
  refine ⟨s.env.withSamples t0 (before ++ [last]), rfl, ?_⟩
  simp only [readyWait, hn]
  rw [List.append_cons s.trace (.now t0) (before ++ [last]), ← htr]
  apply waitLoop_of_pending
  · obtain ⟨-, -, ho⟩ := hp
    rw [ho]
    exact Nat.lt_add_left _ hrounds
  · rw [hpar]; exact hb
  · rw [hpar]; exact hl
  · rw [hnow]; exact hc
  · exact hp

/-! ## A wait that times out (R144, R145) -/

/-- The operations that wait for the line before they act, each with its timeout code (R144). -/
inductive WaitsFirst (timeout : BitVec 32) : Instr → Code → Prop
  | writeSettings : WaitsFirst timeout (.beginWriteSettings timeout) .notReadyToWriteSettings
  | readSettings (u : BitVec 1) : WaitsFirst timeout (.readSettings u timeout) .notReadyToReadSettings
  | capture : WaitsFirst timeout (.beginCapture timeout) .notReadyToBeginCapture

/-- In `Idle` such an operation whose wait times out returns its code, or is stuck where only fairness ends the wait. -/
theorem WaitsFirst.exec_timeout {timeout : BitVec 32} {i : Instr} {c : Code} (h : WaitsFirst timeout i c) {w : CommandWord} {s : State}
    (hw : encode i = .host w) (hp : s.phase = .idle) (hr : (waitOf w timeout s).ready = false) :
    exec i s = if s.env.fair = true ∨ (waitOf w timeout s).byFairness = false then .next ((waitOf w timeout s).st.reply c 0)
      else .fault .waitNeverEnds := by
  cases h with
  | writeSettings => cases hw; rw [exec_beginWriteSettings_idle timeout s hp, hostOp_wait_timeout _ _ _ _ _ hr]
  | readSettings u => cases hw; rw [exec_readSettings_idle u timeout s hp, hostOp_wait_timeout _ _ _ _ _ hr]
  | capture => cases hw; rw [exec_beginCapture_idle timeout s hp, hostOp_wait_timeout _ _ _ _ _ hr]

/-- What a wait appends are samples of the line, all `HIGH` when it times out, and of the clock. -/
theorem waitOf_timeout_trace {w : CommandWord} {timeout : BitVec 32} {s : State} (hr : (waitOf w timeout s).ready = false) :
    ∃ samples, (waitOf w timeout s).st.trace = s.trace ++ .op w :: samples ∧
      ∀ e ∈ samples, e = .drdy .high ∨ ∃ n, e = .now n := by
  obtain ⟨-, -, t0, before, last, htr, hb, -, hlast⟩ := waitEndsAtTheFirstQualifyingSample timeout.toNat (s.log (.op w))
  obtain ⟨t, rfl, -⟩ := hlast hr
  refine ⟨.now t0 :: (before ++ [.now t]), ?_, ?_⟩
  · rw [waitOf, htr, log_trace, List.append_assoc, List.singleton_append]
  · rw [List.forall_mem_cons, List.forall_mem_append, List.forall_mem_singleton]
    exact ⟨.inr ⟨t0, rfl⟩, fun e he => (hb e he).imp_right fun ⟨n, hn, _⟩ => ⟨n, hn⟩, .inr ⟨t, rfl⟩⟩

/-- Settles O29: the operation answers with its timeout code, and its wait appends samples only. -/
theorem timedOutWaitLeavesTheStateUnchanged : Obligations.TimedOutWaitLeavesTheStateUnchanged := by
  intro i w timeout c s hi hw hp hr hf
  have hwaits : WaitsFirst timeout i c := by
    obtain ⟨rfl, rfl⟩ | ⟨rfl | rfl, rfl⟩ | ⟨rfl, rfl⟩ := hi
    · exact .writeSettings
    · exact .readSettings 0
    · exact .readSettings 1
    · exact .capture
  have hsame := (waitOf_sameButInputs w timeout s).1
  obtain ⟨samples, htr, hs⟩ := waitOf_timeout_trace hr
  refine ⟨(waitOf w timeout s).st.reply c 0, samples, by rw [hwaits.exec_timeout hw hp hr, if_pos hf], ?_, ?_, hs⟩
  · rw [hsame]; rfl
  · rw [reply_trace, htr]; simp

/-- Settles O30: neither the environment nor the wait gives the operation an end. -/
theorem unfairWaitIsStuck : Obligations.UnfairWaitIsStuck := by
  intro i w timeout s hi hw hp hr hfair hby
  have hwaits : ∃ c, WaitsFirst timeout i c := by
    obtain rfl | rfl | rfl | rfl := hi
    · exact ⟨_, .writeSettings⟩
    · exact ⟨_, .readSettings 0⟩
    · exact ⟨_, .readSettings 1⟩
    · exact ⟨_, .capture⟩
  obtain ⟨c, hwaits⟩ := hwaits
  rw [hwaits.exec_timeout hw hp hr, if_neg (by simp [hfair, hby])]

end Sys2Proof.Machine


/-! The family of spec/41_reset.md: what `BEGIN_RESET` does by reset strategy (R170 to R172), and that the other operations keep off the bus
while the reset lasts (R174). -/

namespace Sys2Proof.Machine

/-! ## `BEGIN_RESET` by strategy (R170 to R172) -/

/-- A body without a wait that appends `es` and leaves the state otherwise as `t` makes its operation leave `t` after word `w` ran (R146). -/
theorem hostOp_ran {w : CommandWord} {body : State → Reply} {s t : State} {es : List Event} {c : Code}
    (h : body (s.log (.op w)) = replyCode c { t with trace := t.trace ++ .op w :: es }) : hostOp w body s = .next (t.ran w es c 0) := by
  rw [hostOp_next w body s (.inr (by rw [h]; rfl)), h]
  simp [replyCode, State.reply, State.log, State.ran]

/-- Settles O25: each strategy's pulse is one append and its levels, and `BEGIN` re-arms the bus after it. -/
theorem beginResetByStrategy : Obligations.BeginResetByStrategy := by
  intro s
  refine ⟨(preconditionFailureIsANoOp s 0 0).1, fun hs => hostOp_ran ?_, fun hs => hostOp_ran ?_⟩
  · simp [beginResetBody, hs, controlPinReset_eq, rearm_eq, State.log, Config.sentinel]
  · simp [beginResetBody, hs, clockPinReset_eq, rearm_eq, State.log, Config.sentinel]

/-! ## Off the bus while the reset lasts (R174) -/

/-- From `s` to `t` instruction `i` appends its markers and, where it is `UPDATE`, samples of the ready line: nothing on the bus. -/
def OffBus (i : Instr) (s t : State) : Prop :=
  ∃ events, t.trace = s.trace ++ events ∧
    ∀ e ∈ events, (∃ w, e = .op w) ∨ (∃ c d, e = .ret c d) ∨ (i = .update ∧ ∃ l, e = .drdy l)

theorem OffBus.of_trace_eq {i : Instr} {s t : State} (h : t.trace = s.trace) : OffBus i s t := ⟨[], by simp [h], by simp⟩

theorem OffBus.trans {i : Instr} {s t u : State} (h : OffBus i s t) (k : OffBus i t u) : OffBus i s u := by
  obtain ⟨es, hes, hin⟩ := h
  obtain ⟨fs, hfs, hfin⟩ := k
  refine ⟨es ++ fs, by rw [hfs, hes, List.append_assoc], fun e he => ?_⟩
  exact (List.mem_append.1 he).elim (hin e) (hfin e)

/-- An accepted word, a refused one and an unwritten read each append `OP` (R118, R146, R274). -/
theorem OffBus.of_op {i : Instr} {w : CommandWord} {s t : State} (h : t.trace = s.trace ++ [.op w]) : OffBus i s t :=
  ⟨[.op w], h, by simp⟩

theorem reply_offBus (i : Instr) (c : Code) (d : BitVec 32) (s : State) : OffBus i s (s.reply c d) := ⟨[.ret c d], rfl, by simp⟩

/-- `OP` and `RET` are markers, so an operation keeps off the bus where its body does (R146). -/
theorem hostOp_offBus {i : Instr} {w : CommandWord} {body : State → Reply} {s t : State} (h : hostOp w body s = .next t)
    (hb : OffBus i (s.log (.op w)) (body (s.log (.op w))).st) : OffBus i s t := by
  rw [hostOp_eq_next h]
  exact ((OffBus.of_op (log_trace (.op w) s)).trans hb).trans (reply_offBus i _ _ _)

/-- So does one behind a check whose other branch keeps off it. -/
theorem guarded_offBus {i : Instr} {p : Prop} [Decidable p] {w : CommandWord} {body : State → Reply} {s t r : State}
    (h : (if p then hostOp w body s else .next r) = .next t) (hr : OffBus i s r)
    (hb : OffBus i (s.log (.op w)) (body (s.log (.op w))).st) : OffBus i s t := by
  split at h
  · exact hostOp_offBus h hb
  · cases h; exact hr

/-- An operation that stopped at its precondition appended its markers alone (R142). -/
theorem offBus_of_precondition {i : Instr} {w : CommandWord} {c : Code} {s t : State} (hx : exec i s = .next (s.ran w [] c 0))
    (h : exec i s = .next t) : OffBus i s t := by
  cases hx.symm.trans h
  exact ⟨[.op w, .ret c 0], rfl, by simp⟩

theorem setElement_trace (sel val : BitVec 8) (s : State) : (s.setElement sel val).trace = s.trace := by
  rw [(setElement_runs sel val s).trace, List.append_nil]

/-- In `Resetting`, `UPDATE` takes one sample of the ready line and does nothing on the bus (R240). -/
theorem update_offBus {s : State} (hp : s.phase = .resetting) : OffBus .update s s.update := by
  rw [update_sampling s (.inl hp)]
  exact ⟨_, rfl, by simp⟩

/-- Settles O24: in `Resetting` the operations that would send are stopped by their precondition or refused (R141), `UPDATE` samples the
line, and the accessors touch neither the bus nor a line. -/
theorem noBusTrafficWhileResetting : Obligations.NoBusTrafficWhileResetting := by
  intro i s t hi hp hreset hinit h
  change OffBus i s t
  have hidle : s.phase ≠ .idle := by simp [hp]
  have hcapture : s.phase ≠ .capturing := by simp [hp]
  cases i with
  | beginReset => exact absurd rfl hreset
  | blockingInit timeout => exact absurd rfl (hinit timeout)
  | beginWriteSettings timeout =>
    obtain ⟨-, hops, -⟩ := preconditionFailureIsANoOp s timeout 0
    obtain ⟨hwrite, -, -⟩ := hops hidle
    exact offBus_of_precondition hwrite h
  | readSettings u timeout =>
    obtain ⟨-, hops, -⟩ := preconditionFailureIsANoOp s timeout u
    obtain ⟨-, hread, -⟩ := hops hidle
    exact offBus_of_precondition hread h
  | beginCapture timeout =>
    obtain ⟨-, hops, -⟩ := preconditionFailureIsANoOp s timeout 0
    obtain ⟨-, -, hbegin⟩ := hops hidle
    exact offBus_of_precondition hbegin h
  | endCapture =>
    obtain ⟨-, -, hend⟩ := preconditionFailureIsANoOp s 0 0
    exact offBus_of_precondition (hend hcapture) h
  | continueCapture =>
    rw [exec, execContinueCapture, if_neg (by simp [hp])] at h
    cases h
    exact .of_op rfl
  | update =>
    rw [exec, execUpdate] at h
    exact hostOp_offBus h (update_offBus hp)
  | rdreg sel =>
    rw [exec, execRdreg] at h
    split at h
    · exact hostOp_offBus h (.of_trace_eq rfl)
    · cases h; exact .of_op rfl
  | wrreg sel val => exact guarded_offBus h (.of_op rfl) (.of_trace_eq (setElement_trace sel val _))
  | rdchan idx => exact guarded_offBus h (.of_op rfl) (.of_trace_eq rfl)
  | wrchan idx val => exact guarded_offBus h (.of_op rfl) (.of_trace_eq rfl)
  | rdres idx =>
    rw [exec, execRdres] at h
    split at h
    · exact guarded_offBus h (.of_op rfl) (.of_trace_eq rfl)
    · cases h; exact .of_op rfl
  | takeNewData =>
    rw [exec, execTakeNewData] at h
    exact hostOp_offBus h (.of_trace_eq rfl)
  | wreg _ _ _ | rreg _ _ | sync | wakeup | rdata => simp [Instr.isHost] at hi

end Sys2Proof.Machine


/-! The family of spec/42_bus_transactions.md: the bytes of the bus commands (R192 to R196, R120 to R122), that a host operation sends no
others (R197), and the sample decode (R200). -/

namespace Sys2Proof

/-! ## Command and count bytes (R120, R121) -/

/-- OR-ing a register address onto a base byte that leaves the low four bits free is adding it. -/
theorem regCommandByte_eq_add {base : Byte} {r : BitVec 4} (h : base &&& r.setWidth 8 = 0) :
    regCommandByte base r = BitVec.ofNat 8 (base.toNat + r.toNat) := by
  rw [regCommandByte, ← BitVec.add_eq_or_of_and_eq_zero _ _ h, BitVec.ofNat_add, BitVec.ofNat_toNat, BitVec.ofNat_toNat,
    BitVec.setWidth_eq]

theorem regCommandByte_wreg (r : BitVec 4) : regCommandByte Config.cmdWreg r = BitVec.ofNat 8 (0x50 + r.toNat) :=
  regCommandByte_eq_add (by revert r; decide)

theorem regCommandByte_rreg (r : BitVec 4) : regCommandByte Config.cmdRreg r = BitVec.ofNat 8 (0x10 + r.toNat) :=
  regCommandByte_eq_add (by revert r; decide)

theorem countByte_eq_ofNat (n : BitVec 4) : countByte n = BitVec.ofNat 8 n.toNat := (BitVec.ofNat_toNat 8 n).symm

end Sys2Proof

namespace Sys2Proof.Machine

/-! ## What a host operation sends (R191, R197) -/

/-- Settles O23: a refusal and an unwritten read append `OP` alone, and every body sends whole groups and clocks in with `DONT_CARE`
(`Runs.sent`, `Runs.grouped`, `Runs.clocked`), to which `OP` and `RET` add no byte. -/
theorem onlyTheFiveCommandsAreSent : Obligations.OnlyTheFiveCommandsAreSent := by
  intro i s t hi h
  obtain ⟨w, rfl | rfl | ⟨u, es, gs, c, d, hr, rfl⟩⟩ := exec_host_next hi h
  · exact ⟨[.op w], [], rfl, rfl, by simp, by simp⟩
  · exact ⟨[.op w], [], rfl, rfl, by simp, by simp⟩
  · refine ⟨_, gs, hr.reply_trace c d, ?_, hr.grouped, fun b r hmem => ?_⟩
    · simp [sentBytes, hr.sent]
    · exact hr.clocked b r (by simpa using hmem)

/-! ## The bus commands as instructions (R192 to R196) -/

/-- Settles O49: `WREG` is one append, with its two header bytes as numbers. -/
theorem wregSendsHeaderAndValues : Obligations.WregSendsHeaderAndValues := by
  intro r n values s
  rw [exec, execWreg, wreg_eq, regCommandByte_wreg, countByte_eq_ofNat]

/-- Settles O50: `RREG` is one append and `n + 1` draws, with its two header bytes as numbers. -/
theorem rregClocksInTheRegisters : Obligations.RregClocksInTheRegisters := by
  intro r n s
  rw [exec, execRreg, rreg_eq, regCommandByte_rreg, countByte_eq_ofNat]

/-- Settles O51: each of the three commands is one append, and `RDATA` takes three draws. -/
theorem singleByteCommands : Obligations.SingleByteCommands := by
  intro s
  refine ⟨?_, ?_, ?_⟩
  · rw [exec, execSync, sync_eq]
  · rw [exec, execWakeup, wakeup_eq]
  · rw [exec, execRdata, rdata_eq, readEvents]

/-! ## The sample decode (R200) -/

/-- Only the first byte of a sample carries a sign. -/
theorem decodeSample_toInt (b2 b1 b0 : Byte) :
    (decodeSample b2 b1 b0).toInt = b2.toInt * 65536 + b1.toNat * 256 + b0.toNat := by
  rw [decodeSample, BitVec.toInt_signExtend_of_le (by decide), BitVec.toInt_append, BitVec.toInt_append,
    if_neg (by decide), if_neg (by decide)]
  omega

/-- Settles O36: the first byte's sign, worth 256 at weight 65536, is the sample's. -/
theorem sampleDecodeIsTwosComplement : Obligations.SampleDecodeIsTwosComplement := by
  intro b2 b1 b0 raw
  have hsign : b2.toInt = if 2 * b2.toNat < 256 then (b2.toNat : Int) else b2.toNat - 256 := BitVec.toInt_eq_toNat_cond b2
  rw [decodeSample_toInt, hsign]
  split_ifs <;> omega

end Sys2Proof.Machine


/-! The family of spec/43_configuration_sync.md: the settings bytes and the compare masks (R210 to R212), the settings write and read
(R213, R215, R217), and the round-trip and adopt-then-compare laws (R218, R219). -/

namespace Sys2Proof.Machine

/-! ## The settings bytes (R210 to R212) -/

theorem statusByte_toNat (c : Settings) : (statusByte c).toNat = c.order.toNat * 8 + c.acal.toNat * 4 + c.bufen.toNat * 2 := by
  rw [statusByte]
  generalize c.order = order, c.acal = acal, c.bufen = bufen
  revert order acal bufen
  decide

theorem adconByte_toNat (c : Settings) : (adconByte c).toNat = c.clkout.toNat * 32 + c.sdcs.toNat * 8 + c.pga.toNat := by
  rw [adconByte]
  generalize c.clkout = clkout, c.sdcs = sdcs, c.pga = pga
  revert clkout sdcs pga
  decide

theorem statusByte_masked (c : Settings) : statusByte c &&& Config.maskStatus = statusByte c := by
  rw [statusByte]
  generalize c.order = order, c.acal = acal, c.bufen = bufen
  revert order acal bufen
  decide

theorem adconByte_masked (c : Settings) : adconByte c &&& Config.maskAdcon = adconByte c := by
  rw [adconByte]
  generalize c.clkout = clkout, c.sdcs = sdcs, c.pga = pga
  revert clkout sdcs pga
  decide

theorem settingsBlock_masked (s : State) : s.settingsBlock.masked = s.settingsBlock := by
  simp only [Block.masked, State.settingsBlock, statusByte_masked, adconByte_masked, Config.maskMux, Config.maskDrate, and_ones8]

/-- Settles O31: each byte is its fields side by side, and no mask drops a bit of it. -/
theorem settingsBytesFromConfiguration : Obligations.SettingsBytesFromConfiguration := by
  intro s
  exact ⟨statusByte_toNat s.cfg, rfl, adconByte_toNat s.cfg, rfl, settingsBlock_masked s⟩

/-- The settings bytes are computed from `CFG`, `CHAN` and `NEXT_MUX` alone (R210, R211). -/
theorem settingsBlock_congr {s t : State} (hcfg : t.cfg = s.cfg) (hchan : t.chan = s.chan) (hmux : t.nextMux = s.nextMux) :
    t.settingsBlock = s.settingsBlock := by
  rw [State.settingsBlock, State.settingsBlock, State.chanAt, State.chanAt, hcfg, hchan, hmux]

theorem SameButInputs.settingsBlock_eq {s t : State} (h : SameButInputs s t) : t.settingsBlock = s.settingsBlock := by
  obtain ⟨ht, -⟩ := h
  rw [ht]
  rfl

/-! ## The settings write (R213) -/

/-- Settles O32: the precondition stops it, or the wait ends and the frame of the write is one append. -/
theorem beginWriteSettingsResult : Obligations.BeginWriteSettingsResult := by
  intro timeout s word w
  refine ⟨fun hp => ?_, fun hp hr => ?_, fun hp hr hf => ?_⟩
  · obtain ⟨-, hidle, -⟩ := preconditionFailureIsANoOp s timeout 0
    obtain ⟨hwrite, -, -⟩ := hidle hp
    exact hwrite
  · have hblock : w.st.settingsBlock = s.settingsBlock := (waitOf_sameButInputs word timeout s).settingsBlock_eq
    rw [exec_beginWriteSettings_idle timeout s hp, hostOp_wait_ready word timeout _ _ s hr fun _ => rfl]
    simp only [replyCode, writeBlock_eq]
    rw [hblock]
    rfl
  · rw [WaitsFirst.writeSettings.exec_timeout rfl hp hr, if_pos hf]
    rfl

/-! ## The settings read (R215, R217) -/

/-- In `Idle`, once the wait has returned `READY`, the read and what it does with the bytes give the next state and the code. -/
theorem exec_readSettings_ready {u : BitVec 1} {timeout : BitVec 32} {s : State} (hp : s.phase = .idle)
    (hr : (waitOf (hostWord 0x03 0 (updateLocalByte u) timeout) timeout s).ready = true) :
    let e := readAndSettle u (waitOf (hostWord 0x03 0 (updateLocalByte u) timeout) timeout s).st
    exec (.readSettings u timeout) s = .next (e.st.returned e.code e.data) := by
  rw [exec_readSettings_idle u timeout s hp, hostOp_wait_ready _ timeout _ _ s hr (readAndSettle_notByFairness u)]
  rfl

/-- Settles O33: the precondition stops it, or the wait ends and `readAndSettle` adopts or compares the bytes drawn. -/
theorem readSettingsResult : Obligations.ReadSettingsResult := by
  intro u timeout s word w r read
  have hsame : SameButInputs s w.st := waitOf_sameButInputs word timeout s
  have hparams : w.st.params = s.params := by rw [hsame.1]
  refine ⟨fun hp => ?_, fun hp hr hu => ?_, fun hp hr hu hm => ?_, fun hp hr hu hm => ?_, fun hp hr hf => ?_⟩
  · obtain ⟨-, hidle, -⟩ := preconditionFailureIsANoOp s timeout u
    obtain ⟨-, hread, -⟩ := hidle hp
    exact hread
  · rw [exec_readSettings_ready hp hr, readAndSettle_eq, if_pos hu]
    simp only [read, ← hparams, ← hsame.chan_eq]
    rfl
  · rw [exec_readSettings_ready hp hr, readAndSettle_eq, if_neg (by simp [hu]), hsame.settingsBlock_eq, if_pos hm]
    simp only [read, ← hparams]
    rfl
  · rw [exec_readSettings_ready hp hr, readAndSettle_eq, if_neg (by simp [hu]), hsame.settingsBlock_eq, if_neg hm]
    simp only [read, ← hparams]
    rfl
  · rw [(WaitsFirst.readSettings u).exec_timeout rfl hp hr, if_pos hf]
    rfl

/-- A comparing read that is ready and sees the settings bytes in the masked bits returns `OK` and stores nothing. -/
theorem exec_compare_ok {timeout : BitVec 32} {s : State} (hp : s.phase = .idle)
    (hr : (waitOf (hostWord 0x03 0 0 timeout) timeout s).ready = true)
    (hm : (waitOf (hostWord 0x03 0 0 timeout) timeout s).st.env.nextBlock.masked = s.settingsBlock.masked) :
    ∃ v, exec (.readSettings 0 timeout) s = .next v ∧ v.results = s.results ++ [resultWord .ok 0] ∧ Writes [] s v := by
  obtain ⟨-, -, hok, -, -⟩ := readSettingsResult 0 timeout s
  have hv := hok hp hr rfl hm
  refine ⟨_, hv, ?_, exec_writes hv⟩
  simp only [State.returned]
  rw [(waitOf_sameButInputs _ timeout s).1]

/-! ## The round trip (R218) -/

/-- Outside a capture, `UPDATE`s alone write `STATE` only. -/
theorem UpdateRun.writes {s t : State} (h : UpdateRun s t) (hs : OutsideCapture s) : Writes [.phase] s t := by
  induction h with
  | refl s => exact Writes.refl _ s
  | @step s t u hupdate _ ih =>
    rw [exec, execUpdate] at hupdate
    have hbody := update_outside (s := s.log (.op (hostWord 0x07 0 0 0))) hs
    have hst : Writes [.phase] s t :=
      (((log_sameElements _ s).writes _).trans hbody.1).trans ((hostOp_sameElements hupdate).writes _)
    have ht : OutsideCapture t := by rw [OutsideCapture, hostOp_phase hupdate]; exact hbody.2
    exact hst.trans (ih ht)

/-- Settles O34: the write and the `UPDATE`s write `STATE` only, so the comparing read compares with the bytes that were written. -/
theorem settingsRoundTrip : Obligations.SettingsRoundTrip := by
  intro timeout timeout' s t u hs hwrite ht hrun hu hr hm
  have hst : Writes [.phase] s t := (exec_writes hwrite).mono (by simp [writeList, hs])
  have hsu : Writes [.phase] s u := hst.trans (hrun.writes (by simp [OutsideCapture, ht]))
  have hblock : u.settingsBlock = s.settingsBlock :=
    settingsBlock_congr (hsu.kept .cfg (by simp)) (hsu.kept .chan (by simp)) (hsu.kept .nextMux (by simp))
  rw [← hblock] at hm
  obtain ⟨v, hv, hresults, huv⟩ := exec_compare_ok hu hr hm
  have hsv : Writes [.phase] s v := hsu.trans (huv.mono (by simp))
  exact ⟨v, hv, hresults, hsv.kept .cfg (by simp), hsv.kept .chan (by simp), (huv.kept .phase (by simp)).trans hu⟩

/-! ## Adopt, then compare (R219) -/

/-- Adoption stores of the status byte exactly the bits its mask keeps (R212, R217). -/
theorem statusByte_settings (b : Block) : statusByte b.settings = b.status &&& Config.maskStatus := by
  simp only [statusByte, Block.settings]
  generalize b.status = status
  revert status
  decide

/-- Adoption stores of the control byte exactly the bits its mask keeps (R212, R217). -/
theorem adconByte_settings (b : Block) : adconByte b.settings = b.adcon &&& Config.maskAdcon := by
  simp only [adconByte, Block.settings]
  generalize b.adcon = adcon
  revert adcon
  decide

/-- With the configuration of a block read back, all settings bytes but the multiplexer byte are the bits of the block its masks keep. -/
theorem settingsBlock_of_settings {s : State} {b : Block} (hcfg : s.cfg = b.settings) :
    s.settingsBlock = { b.masked with mux := s.chanAt s.nextMux } := by
  rw [State.settingsBlock, hcfg, statusByte_settings, adconByte_settings]
  simp only [Block.masked, Block.settings, Config.maskDrate, and_ones8]

/-- The masks keep the whole of the multiplexer byte, which adoption stores in entry 0. -/
theorem chanAt_zero_of_adopted {s t : State} {b : Block} (hchan : t.chan = s.chan.set 0 b.mux) (hlen : 0 < s.chan.length) :
    t.chanAt 0 = b.masked.mux := by
  simp only [State.chanAt, hchan, Block.masked, Config.maskMux, and_ones8]
  exact chanAt_setChan_self 0 b.mux s hlen

/-- A ready adopting read stores the configuration and entry 0 of the bytes read, and leaves `STATE` and the cursor (R217). -/
theorem exec_adopt {timeout : BitVec 32} {s t : State} (hp : s.phase = .idle)
    (hr : (waitOf (hostWord 0x03 0 1 timeout) timeout s).ready = true) (h : exec (.readSettings 1 timeout) s = .next t) :
    let r := (waitOf (hostWord 0x03 0 1 timeout) timeout s).st.env.nextBlock
    t.cfg = r.settings ∧ t.chan = s.chan.set 0 r.mux ∧ t.phase = .idle ∧ t.nextMux = s.nextMux := by
  have hw := exec_writes h
  obtain ⟨-, hadopt, -, -, -⟩ := readSettingsResult 1 timeout s
  rw [hadopt hp hr rfl] at h
  cases h
  exact ⟨rfl, rfl, (hw.kept .phase (by simp [writeList])).trans hp, hw.kept .nextMux (by simp [writeList])⟩

/-- Settles O35: the settings bytes after adoption are the bits of `r` the masks keep, so a comparing read of `r` agrees with them. -/
theorem adoptThenCompare : Obligations.AdoptThenCompare := by
  intro timeout timeout' s t hinv hp hr h r w
  obtain ⟨hcfg, hchan, htp, hmux⟩ := exec_adopt hp hr h
  have hblock : t.settingsBlock = { r.masked with mux := t.chanAt t.nextMux } := settingsBlock_of_settings hcfg
  have hentry (h0 : s.nextMux = 0) : t.chanAt t.nextMux = r.masked.mux := by
    obtain ⟨hlen, -, -⟩ := (wf_iff s).1 hinv.tables
    rw [hmux, h0]
    exact chanAt_zero_of_adopted hchan (hlen ▸ hinv.channels)
  rw [settingsBlock_masked, hblock]
  refine ⟨rfl, rfl, rfl, hentry, fun h0 hw hsame => ?_⟩
  have hm : w.st.env.nextBlock.masked = t.settingsBlock.masked := by rw [hsame, settingsBlock_masked, hblock, hentry h0]
  obtain ⟨v, hv, hresults, -⟩ := exec_compare_ok htp hw hm
  exact ⟨v, hv, hresults⟩

end Sys2Proof.Machine


/-! The family of spec/44_capture_pipeline.md: what the four capture operations do (R230, R240, R243, R245), and the laws of the pipeline over
the runs of a capture (R248, R249). -/

namespace Sys2Proof.Machine

/-! ## The operations of a capture (R230, R240, R243, R245) -/

/-- Settles O40: the body is the test of `STATE` and one assignment to it. -/
theorem endCaptureMarksTheDrain : Obligations.EndCaptureMarksTheDrain := by
  intro s
  refine ⟨fun hp => hostOp_ran ?_, fun hp => hostOp_of_precondition (if_pos hp)⟩
  simp [endCaptureBody, hp, State.enter, State.log]

/-- Settles O38: one pipelined step with a channel in flight, in each of the two capture states; elsewhere the check refuses the word. -/
theorem continueCaptureTakesOneStep : Obligations.ContinueCaptureTakesOneStep := by
  intro s stored
  refine ⟨fun hinv hp => ?_, fun hinv hp => ?_, fun hc hf => ?_⟩
  · have hflight : s.curMux ≠ Config.sentinel := hinv.inFlight.2 (.inl hp)
    rw [exec, execContinueCapture, if_pos (.inl hp)]
    refine hostOp_ran ?_
    rw [pipelinedStep_next (s.log _) hp hflight]
    simp [stored, State.log, State.chanAt, State.nextIndex]
  · have hflight : s.curMux ≠ Config.sentinel := hinv.inFlight.2 (.inr hp)
    rw [exec, execContinueCapture, if_pos (.inr hp)]
    refine hostOp_ran ?_
    rw [pipelinedStep_drain (s.log _) (by simp [hp]) hflight]
    simp [stored, State.log, Config.sentinel]
  · rw [exec, execContinueCapture, if_neg (by simp [hc, hf])]
    rfl

/-- A `HIGH` sample leaves an `UPDATE` nothing more to do (R240). -/
theorem update_of_high (s : State) (hu : s.phase ≠ .uninitialized) (hi : s.phase ≠ .idle) (hh : s.env.nextReady = .high) :
    s.update = s.drdy.2 := by
  by_cases hp : s.phase = .resetting ∨ s.phase = .writingSettings
  · rw [update_sampling s hp, drdy_eq, hh, if_neg (by simp)]
  · have hcapture : s.phase = .capturing ∨ s.phase = .finishingCapture := by cases h : s.phase <;> simp_all
    rw [update_stepping s hcapture, drdy_eq, hh, if_neg (by simp)]

/-- A `LOW` sample ends a reset or a settings write (R240). -/
theorem update_of_low_ends (s : State) (hp : s.phase = .resetting ∨ s.phase = .writingSettings) (hl : s.env.nextReady = .low) :
    s.update = s.drdy.2.enter .idle := by
  rw [update_sampling s hp, drdy_eq, hl, if_pos rfl, State.enter]

/-- A `LOW` sample in a capture takes one pipelined step (R240). -/
theorem update_of_low_steps (s : State) (hp : s.phase = .capturing ∨ s.phase = .finishingCapture) (hl : s.env.nextReady = .low) :
    s.update = s.drdy.2.pipelinedStep := by
  rw [update_stepping s hp, drdy_eq, hl, if_pos rfl]

/-- Settles O39: the sample comes first, and its level and `STATE` say what follows it. -/
theorem updateByState : Obligations.UpdateByState := by
  intro s low stored
  rw [exec, execUpdate]
  refine ⟨fun hp => hostOp_ran ?_, fun hu hi hh => hostOp_ran ?_, fun hp hl => hostOp_ran ?_, fun hinv hp hl => hostOp_ran ?_,
    fun hinv hp hl => hostOp_ran ?_⟩
  · rw [update_noop (s.log _) hp, State.log]
  · have hhigh : s.env.nextReady = .high := by cases h : s.env.nextReady <;> simp_all [low]
    rw [update_of_high (s.log _) hu hi hhigh]
    simp [drdy_eq, hhigh, State.log]
  · rw [update_of_low_ends (s.log _) hp hl]
    simp [drdy_eq, show s.env.nextReady = .low from hl, State.log, State.enter]
  · have hflight : s.curMux ≠ Config.sentinel := hinv.inFlight.2 (.inl hp)
    rw [update_of_low_steps (s.log _) (.inl hp) hl, pipelinedStep_next (s.log _).drdy.2 hp hflight]
    simp [stored, drdy_eq, show s.env.nextReady = .low from hl, State.log, State.chanAt, State.nextIndex]
  · have hflight : s.curMux ≠ Config.sentinel := hinv.inFlight.2 (.inr hp)
    have hdrain : s.phase ≠ .capturing := by simp [hp]
    rw [update_of_low_steps (s.log _) (.inr hp) hl, pipelinedStep_drain (s.log _).drdy.2 hdrain hflight]
    simp [stored, drdy_eq, show s.env.nextReady = .low from hl, State.log, Config.sentinel]

/-- Settles O37: the precondition stops it, or the wait ends, and its first step finds nothing in flight. -/
theorem beginCaptureResult : Obligations.BeginCaptureResult := by
  intro timeout s word w
  refine ⟨fun hp => ?_, fun hinv hp hr => ?_, fun hp hr hf => ?_⟩
  · obtain ⟨-, hidle, -⟩ := preconditionFailureIsANoOp s timeout 0
    obtain ⟨-, -, hbegin⟩ := hidle hp
    exact hbegin
  · have hsame : SameButInputs s w.st := waitOf_sameButInputs word timeout s
    have hnone : w.st.curMux = Config.sentinel := hsame.curMux_eq.trans (hinv.idle_curMux (by simp [hp]) (by simp [hp]))
    obtain ⟨hcs, -, -, hheld⟩ := hinv.levels
    rw [exec_beginCapture_idle timeout s hp, hostOp_wait_ready word timeout _ _ s hr fun _ => rfl]
    simp only [replyCode]
    rw [pipelinedStep_first (w.st.enter .capturing) rfl hnone, hsame.1]
    simp [State.reply, State.returned, State.log, State.enter, State.chanAt, State.nextIndex, hcs, hheld]
  · rw [WaitsFirst.capture.exec_timeout rfl hp hr, if_pos hf]
    rfl

/-! ## The start order (R247) -/

/-- The channel that the step after `j` others starts, in a capture begun in `s` (R247). -/
def State.startOrder (s : State) (j : Nat) : Nat := (s.nextMux.toNat + j) % s.params.n.toNat

theorem startOrder_zero {s : State} (h : s.nextMux < s.params.n) : s.startOrder 0 = s.nextMux.toNat := Nat.mod_eq_of_lt h

theorem startOrder_succ (s : State) (j : Nat) : (s.startOrder j + 1) % s.params.n.toNat = s.startOrder (j + 1) :=
  Nat.mod_add_mod _ _ _

/-- `N` starts in a row name every channel. -/
theorem exists_startOrder_eq {s : State} (h : s.nextMux < s.params.n) {i : Nat} (hi : i < s.params.n.toNat) :
    ∃ j < s.params.n.toNat, s.startOrder j = i := by
  have hn : s.nextMux.toNat < s.params.n.toNat := h
  refine ⟨(i + s.params.n.toNat - s.nextMux.toNat) % s.params.n.toNat, Nat.mod_lt _ (by omega), ?_⟩
  rw [State.startOrder, Nat.add_mod_mod, Nat.add_sub_cancel' (by omega), Nat.add_mod_right, Nat.mod_eq_of_lt hi]

theorem nextIndex_toNat {s : State} (h : 1 ≤ s.params.n.toNat) (k : BitVec 8) :
    (s.nextIndex k).toNat = (k.toNat + 1) % s.params.n.toNat := by
  have hn := s.params.n.isLt
  have hm : (k.toNat + 1) % s.params.n.toNat < s.params.n.toNat := Nat.mod_lt _ h
  rw [State.nextIndex, BitVec.toNat_ofNat, Nat.mod_eq_of_lt (by omega)]

/-! ## What one operation of a run does to the pipeline -/

/-- From `t` to `u` one step was taken in `Capturing` with a channel in flight: it reads that channel and starts the next (R233). -/
structure StepTaken (t u : State) : Prop where
  capturing : u.phase = .capturing
  started   : u.curMux = t.nextMux
  advanced  : u.nextMux = t.nextIndex t.nextMux
  marked    : u.newData = t.curMux
  written   : u.wr = t.wr.set t.curMux.toNat true

theorem update_stepTaken {t u : State} (hinv : t.Inv) (hp : t.phase = .capturing) (hl : t.env.nextReady = .low)
    (h : exec .update t = .next u) : StepTaken t u := by
  obtain ⟨-, -, -, hstep, -⟩ := updateByState t
  cases (hstep hinv hp hl).symm.trans h
  exact ⟨hp, rfl, rfl, rfl, rfl⟩

theorem continueCapture_stepTaken {t u : State} (hinv : t.Inv) (hp : t.phase = .capturing)
    (h : exec .continueCapture t = .next u) : StepTaken t u := by
  obtain ⟨hstep, -, -⟩ := continueCaptureTakesOneStep t
  cases (hstep hinv hp).symm.trans h
  exact ⟨hp, rfl, rfl, rfl, rfl⟩

/-- A `HIGH` sample of a capture writes no element. -/
theorem update_high_writes {t u : State} (hp : t.phase = .capturing) (hh : t.env.nextReady = .high)
    (h : exec .update t = .next u) : Writes [] t u := by
  obtain ⟨-, hhigh, -, -, -⟩ := updateByState t
  cases (hhigh (by simp [hp]) (by simp [hp]) (by simp [hh])).symm.trans h
  exact writes_iff.2 (by simp [State.ran])

/-- The operations aside write, in `Capturing`, the configuration alone (R141). -/
theorem aside_writes {i : Instr} {t u : State} (hi : i.aside = true) (hp : t.phase = .capturing) (h : exec i t = .next u) :
    Writes [.cfg, .chan, .oos] t u := by
  refine (exec_writes h).mono ?_
  cases i with
  | beginWriteSettings _ | beginCapture _ | rdreg _ | rdchan _ | rdres _ => simp [writeList, hp]
  | readSettings u _ => rw [writeList]; split <;> simp
  | wrreg sel _ => rw [writeList, selectorWrites]; split <;> simp
  | beginReset | continueCapture | endCapture | update | blockingInit _ | wrchan _ _ | takeNewData | wreg _ _ _ | rreg _ _ | sync
  | wakeup | rdata => cases hi

/-- A `BEGIN_CAPTURE` that enters `Capturing` has started the first channel (R230). -/
theorem beginCapture_starts {timeout : BitVec 32} {s t : State} (hinv : s.Inv) (hp : s.phase = .idle)
    (h : exec (.beginCapture timeout) s = .next t) (ht : t.phase = .capturing) :
    t.curMux = s.nextMux ∧ t.nextMux = s.nextIndex s.nextMux := by
  have hready : (waitOf (hostWord 0x04 0 0 timeout) timeout s).ready = true := by
    rw [exec_beginCapture_idle timeout s hp] at h
    exact (hostOp_wait_phase h (fun u => pipelinedStep_phase (u.enter .capturing)) (by simp [hp, ht])).1
  obtain ⟨-, hstart, -⟩ := beginCaptureResult timeout s
  cases (hstart hinv hp hready).symm.trans h
  exact ⟨rfl, rfl⟩

/-- The step that follows `END_CAPTURE` reads the channel in flight and ends in `Idle` (R245, R246). -/
theorem drain_reads {t u v : State} (hinv : t.Inv) (hp : t.phase = .capturing) (he : exec .endCapture t = .next u)
    (h : u.env.nextReady = .low ∧ exec .update u = .next v ∨ exec .continueCapture u = .next v) :
    v.phase = .idle ∧ v.curMux = 0xFF ∧ v.newData = t.curMux := by
  have hu : u.Inv := hinv.exec he
  obtain ⟨hmark, -⟩ := endCaptureMarksTheDrain t
  cases (hmark hp).symm.trans he
  obtain ⟨hl, h⟩ | h := h
  · obtain ⟨-, -, -, -, hdrain⟩ := updateByState _
    cases (hdrain hu rfl hl).symm.trans h
    exact ⟨rfl, rfl, rfl⟩
  · obtain ⟨-, hdrain, -⟩ := continueCaptureTakesOneStep _
    cases (hdrain hu rfl).symm.trans h
    exact ⟨rfl, rfl, rfl⟩

/-! ## The laws of the pipeline (R248, R249) -/

/-- Where the pipeline stands in `t` after the first step of a capture begun in `s` and `k` more (R248): the channels in flight, next and
last read in the start order, and the slots of all channels read so far written. -/
structure PipelineAt (s : State) (k : Nat) (t : State) : Prop where
  inv       : t.Inv
  params    : t.params = s.params
  capturing : t.phase = .capturing
  inFlight  : t.curMux.toNat = s.startOrder k
  next      : t.nextMux.toNat = s.startOrder (k + 1)
  unmarked  : k = 0 → t.newData = s.newData
  marked    : ∀ j, k = j + 1 → t.newData.toNat = s.startOrder j
  written   : ∀ j < k, t.wr.getD (s.startOrder j) false = true

theorem PipelineAt.begun {timeout : BitVec 32} {s t : State} (hinv : s.Inv) (hp : s.phase = .idle)
    (h : exec (.beginCapture timeout) s = .next t) (ht : t.phase = .capturing) : PipelineAt s 0 t := by
  obtain ⟨hcur, hnext⟩ := beginCapture_starts hinv hp h ht
  have hfirst := startOrder_zero hinv.nextValid
  exact {
    inv := hinv.exec h
    params := (exec_grows h).params
    capturing := ht
    inFlight := by rw [hcur, hfirst]
    next := by rw [hnext, nextIndex_toNat hinv.channels, ← hfirst, startOrder_succ]
    unmarked := fun _ => (exec_beginCapture_stores_nothing hinv h).kept .newData (by simp)
    marked := by simp
    written := by simp }

/-- Writing one entry of a table of written bits. -/
theorem getD_set_true {l : List Bool} {i : Nat} (hi : i < l.length) (j : Nat) :
    (l.set i true).getD j false = true ↔ j = i ∨ l.getD j false = true := by
  by_cases h : i = j
  · simp [← h, hi]
  · simp [h, Ne.symm h]

/-- A step moves the pipeline on by one channel. -/
theorem PipelineAt.stepped {s t u : State} {k : Nat} {i : Instr} (h : PipelineAt s k t) (he : exec i t = .next u)
    (hs : StepTaken t u) : PipelineAt s (k + 1) u := by
  have hlt : s.startOrder k < t.wr.length := by
    obtain ⟨-, -, hlen⟩ := (wf_iff t).1 h.inv.tables
    rw [hlen, h.params]
    exact Nat.mod_lt _ (h.params ▸ h.inv.channels)
  have hwr : u.wr = t.wr.set (s.startOrder k) true := by rw [hs.written, h.inFlight]
  exact {
    inv := h.inv.exec he
    params := (exec_grows he).params.trans h.params
    capturing := hs.capturing
    inFlight := by rw [hs.started, h.next]
    next := by rw [hs.advanced, nextIndex_toNat h.inv.channels, h.next, h.params, startOrder_succ]
    unmarked := by simp
    marked := fun j hj => by rw [hs.marked, h.inFlight, Nat.succ.inj hj]
    written := fun j hj => by
      rw [hwr, getD_set_true hlt]
      exact (Nat.lt_succ_iff_lt_or_eq.1 hj).elim (fun hjk => .inr (h.written j hjk)) fun hjk => .inl (by rw [hjk]) }

/-- An operation that writes the configuration at most leaves the pipeline where it stands. -/
theorem PipelineAt.passed {s t u : State} {k : Nat} {i : Instr} (h : PipelineAt s k t) (he : exec i t = .next u)
    (hw : Writes [.cfg, .chan, .oos] t u) : PipelineAt s k u := by
  have hphase : u.phase = t.phase := hw.kept .phase (by simp)
  have hcur : u.curMux = t.curMux := hw.kept .curMux (by simp)
  have hnext : u.nextMux = t.nextMux := hw.kept .nextMux (by simp)
  have hnew : u.newData = t.newData := hw.kept .newData (by simp)
  have hwr : u.wr = t.wr := hw.kept .wr (by simp)
  exact {
    inv := h.inv.exec he
    params := (exec_grows he).params.trans h.params
    capturing := hphase.trans h.capturing
    inFlight := by rw [hcur, h.inFlight]
    next := by rw [hnext, h.next]
    unmarked := by rw [hnew]; exact h.unmarked
    marked := by rw [hnew]; exact h.marked
    written := by rw [hwr]; exact h.written }

/-- The pipeline stands where the number of steps of the run puts it. -/
theorem CaptureRun.pipelineAt {s t : State} {m : Nat} (hinv : s.Inv) (h : CaptureRun s m t) :
    ∃ k, m = k + 1 ∧ PipelineAt s k t := by
  induction h with
  | begun timeout hp he ht => exact ⟨0, rfl, .begun hinv hp he ht⟩
  | stepped _ hl he ih =>
    obtain ⟨k, rfl, hk⟩ := ih
    exact ⟨k + 1, rfl, hk.stepped he (update_stepTaken hk.inv hk.capturing hl he)⟩
  | waited _ hh he ih =>
    obtain ⟨k, rfl, hk⟩ := ih
    exact ⟨k, rfl, hk.passed he ((update_high_writes hk.capturing hh he).mono (by simp))⟩
  | continued _ he ih =>
    obtain ⟨k, rfl, hk⟩ := ih
    exact ⟨k + 1, rfl, hk.stepped he (continueCapture_stepTaken hk.inv hk.capturing he)⟩
  | passed i _ hi he ih =>
    obtain ⟨k, rfl, hk⟩ := ih
    exact ⟨k, rfl, hk.passed he (aside_writes hi hk.capturing he)⟩

/-- Settles O41: the pipeline stands where the steps of the run put it, and the drain reads the channel in flight. -/
theorem pipelineCyclesTheChannels : Obligations.PipelineCyclesTheChannels := by
  intro s t m hinv hrun
  obtain ⟨k, rfl, h⟩ := hrun.pipelineAt hinv
  refine ⟨Nat.le_add_left 1 k, h.capturing, h.inFlight, h.next, fun hm => h.unmarked (Nat.succ.inj hm), fun hm => ?_,
    fun u v hend hstep => ?_⟩
  · obtain ⟨j, rfl⟩ := Nat.exists_eq_succ_of_ne_zero (Nat.ne_of_gt (Nat.le_of_succ_le_succ hm))
    exact h.marked j rfl
  · obtain ⟨hidle, hcur, hnew⟩ := drain_reads h.inv h.capturing hend hstep
    exact ⟨hidle, hcur, hnew ▸ h.inFlight⟩

/-- Settles O42: the first `N` channels of the start order are all the channels, and each has been read. -/
theorem everyChannelIsRead : Obligations.EveryChannelIsRead := by
  intro s t m hinv hrun hm i hi
  obtain ⟨k, rfl, h⟩ := hrun.pipelineAt hinv
  obtain ⟨j, hj, hij⟩ := exists_startOrder_eq hinv.nextValid hi
  rw [State.writtenAt, ← hij]
  exact h.written j (hj.trans_le (Nat.le_of_succ_le_succ hm))

end Sys2Proof.Machine


/-! The family of spec/45_blocking_init.md: the polling loops of `BLOCKING_INIT` (R260), its stages (R260) and outcomes (R262), and the
corner cases of a zero budget (R263). -/

namespace Sys2Proof.Machine

/-! ## One round of a polling loop (R240, R260) -/

/-- The two states in which `BLOCKING_INIT` polls. -/
def State.Polled (s : State) : Prop := s.phase = .resetting ∨ s.phase = .writingSettings

theorem State.Polled.ne_idle {s : State} (h : s.Polled) : s.phase ≠ .idle := by
  obtain h | h := h <;> simp [h]

theorem State.Polled.update_high {s : State} (h : s.Polled) (hr : s.env.nextReady = .high) : s.update = s.drdy.2 :=
  update_of_high s (by obtain h | h := h <;> simp [h]) h.ne_idle hr

/-- A `LOW` sample ends the loop, whatever rounds are left. -/
theorem pollLoop_of_low (t0 timeout fuel : Nat) {s : State} (h : s.Polled) (hr : s.env.nextReady = .low) :
    pollLoop t0 timeout fuel s = ⟨true, s.drdy.2.enter .idle, false⟩ := by
  have hu := update_of_low_ends s h hr
  cases fuel with
  | zero => rw [pollLoop]; simp [hu]
  | succ fuel => rw [pollLoop_succ]; simp [hu]

/-- After a `HIGH` sample and no round left, the last reading. -/
theorem pollLoop_zero_of_high (t0 timeout : Nat) {s : State} (h : s.Polled) (hr : s.env.nextReady = .high) :
    pollLoop t0 timeout 0 s = waitOut t0 timeout s.drdy.2 := by
  rw [pollLoop]
  simp only [h.update_high hr]
  exact if_neg h.ne_idle

/-- After a `HIGH` sample, a reading that ends the loop or lets it go on. -/
theorem pollLoop_succ_of_high (t0 timeout fuel : Nat) {s : State} (h : s.Polled) (hr : s.env.nextReady = .high) :
    pollLoop t0 timeout (fuel + 1) s =
      if expired s.params.waitCmp (s.drdy.2.nowMs.1 - t0) timeout then ⟨false, s.drdy.2.nowMs.2, false⟩
      else pollLoop t0 timeout fuel s.drdy.2.nowMs.2 := by
  rw [pollLoop_succ, h.update_high hr]
  exact if_neg h.ne_idle

/-! ## How a polling loop ends (R260) -/

/-- The events of rounds that end nothing: a `HIGH` sample and a reading each. -/
def pollRounds (waited : List Nat) : List Event := waited.flatMap fun t => [.drdy .high, .now t]

/-- From `s` the loop took rounds that ended nothing and then one that ended it: with a `LOW` sample in `Idle`, or with a `HIGH` sample
and an expired reading in the state it began in. -/
structure PollEnds (t0 timeout : Nat) (s : State) (p : WaitEnd) : Prop where
  frame  : SameButInputs (s.enter (if p.ready = true then .idle else s.phase)) p.st
  rounds : ∃ waited : List Nat,
    (∀ t ∈ waited, expired s.params.waitCmp (t - t0) timeout = false) ∧
    (p.ready = true → p.st.trace = s.trace ++ (pollRounds waited ++ [.drdy .low])) ∧
    (p.ready = false → ∃ t, expired s.params.waitCmp (t - t0) timeout = true ∧
      p.st.trace = s.trace ++ (pollRounds waited ++ [.drdy .high, .now t]))

theorem drdy_trace (s : State) : s.drdy.2.trace = s.trace ++ [Event.drdy s.env.nextReady] := rfl

/-- A `HIGH` sample and a reading, the events of one round. -/
theorem highRound_trace {s : State} (floor : Nat) (hr : s.env.nextReady = .high) :
    (s.drdy.2.nowFrom floor).2.trace = s.trace ++ [Event.drdy .high, .now (s.drdy.2.nowFrom floor).1] := by
  rw [← hr]
  exact List.append_assoc s.trace [_] [_]

theorem highRound_sameButInputs (floor : Nat) (s : State) : SameButInputs s (s.drdy.2.nowFrom floor).2 :=
  (drdy_sameButInputs s).trans (nowFrom_sameButInputs floor _)

theorem pollEnds_of_low (t0 timeout : Nat) {s : State} (hr : s.env.nextReady = .low) :
    PollEnds t0 timeout s ⟨true, s.drdy.2.enter .idle, false⟩ where
  frame := ⟨rfl, rfl⟩
  rounds := ⟨[], by simp, fun _ => hr ▸ drdy_trace s, by simp⟩

theorem pollEnds_of_expired {t0 timeout floor : Nat} {s : State} {byFairness : Bool} (hr : s.env.nextReady = .high)
    (hx : expired s.params.waitCmp ((s.drdy.2.nowFrom floor).1 - t0) timeout = true) :
    PollEnds t0 timeout s ⟨false, (s.drdy.2.nowFrom floor).2, byFairness⟩ where
  frame := highRound_sameButInputs floor s
  rounds := ⟨[], by simp, by simp, fun _ => ⟨_, hx, highRound_trace floor hr⟩⟩

/-- A round that ends nothing, before a loop that ends. -/
theorem PollEnds.after_round {t0 timeout : Nat} {s : State} {p : WaitEnd} (h : PollEnds t0 timeout s.drdy.2.nowMs.2 p)
    (hr : s.env.nextReady = .high) (hx : expired s.params.waitCmp (s.drdy.2.nowMs.1 - t0) timeout = false) :
    PollEnds t0 timeout s p where
  frame := SameButInputs.trans (highRound_sameButInputs 0 (s.enter _)) h.frame
  rounds := by
    obtain ⟨waited, hw, hready, hexpired⟩ := h.rounds
    have htr := highRound_trace 0 hr
    rw [State.nowMs, htr] at hready hexpired
    refine ⟨s.drdy.2.nowMs.1 :: waited, List.forall_mem_cons.2 ⟨hx, hw⟩, fun hp => ?_, fun hp => ?_⟩
    · rw [hready hp, List.append_assoc]; rfl
    · obtain ⟨t, ht, h⟩ := hexpired hp
      exact ⟨t, ht, by rw [h, List.append_assoc]; rfl⟩

theorem pollLoop_pollEnds (t0 timeout fuel : Nat) {s : State} (h : s.Polled) :
    PollEnds t0 timeout s (pollLoop t0 timeout fuel s) := by
  induction fuel generalizing s with
  | zero =>
    cases hr : s.env.nextReady with
    | low => rw [pollLoop_of_low t0 timeout 0 h hr]; exact pollEnds_of_low t0 timeout hr
    | high =>
      rw [pollLoop_zero_of_high t0 timeout h hr]
      exact pollEnds_of_expired hr (expired_of_deadline _ _ _ _ (Nat.le_add_right_of_le (Nat.le_max_right _ _)))
  | succ fuel ih =>
    cases hr : s.env.nextReady with
    | low => rw [pollLoop_of_low t0 timeout _ h hr]; exact pollEnds_of_low t0 timeout hr
    | high =>
      rw [pollLoop_succ_of_high t0 timeout fuel h hr]
      split
      · next hx => exact pollEnds_of_expired hr hx
      · next hx => exact (ih (s := s.drdy.2.nowMs.2) h).after_round hr (Bool.eq_false_iff.2 hx)

theorem pollUntilIdle_pollEnds (t0 timeout : Nat) {s : State} (h : s.Polled) :
    PollEnds t0 timeout s (pollUntilIdle t0 timeout s) := pollLoop_pollEnds t0 timeout _ h

/-- Settles O53: by induction on the rounds, the loop ends with the first round that has a `LOW` sample or an expired reading. -/
theorem pollingLoopEnds : Obligations.PollingLoopEnds := by
  intro t0 timeout s h p cmp
  have hends := pollUntilIdle_pollEnds t0 timeout h
  obtain ⟨hst, hfair⟩ := hends.frame
  exact ⟨hst, hfair, hends.rounds⟩

/-! ## `BLOCKING_INIT` as its stages (R260) -/

/-- The reset of `BLOCKING_INIT` with a reset method: the pulse, `BEGIN`, `Resetting` (R170 to R172). -/
def State.afterReset (s : State) : State :=
  { s with
    trace := s.trace ++
      ((if s.params.resetStrategy = .controlPin then controlPulseEvents else clockPulseEvents) ++ [.busBegin])
    phase := .resetting
    curMux := 0xFF
    rstLvl := .high
    csLvl := if s.params.resetStrategy = .controlPin then s.csLvl else .high
    busOn := true }

/-- The settings write of `BLOCKING_INIT`: the frame of the write, `WritingSettings` (R213). -/
def State.afterWrite (s : State) : State :=
  { s with
    trace := s.trace ++ writeBlockEvents s.settingsBlock
    phase := .writingSettings
    csLvl := .high
    busHeld := false }

/-- The adopting read of `BLOCKING_INIT`: the frame of the read, `CFG` and `CHAN[0]` (R215, R217). -/
def State.afterRead (s : State) : State :=
  { s with
    trace := s.trace ++ readBlockEvents s.params.dontCare s.env
    env := s.env.afterBytes 4
    csLvl := .high
    busHeld := false
    cfg := s.env.nextBlock.fields
    chan := s.chan.set 0 s.env.nextBlock.mux }

/-- A wait with what is left of the overall budget, whose reading comes first (R260 `Remaining`). -/
def budgetWait (t0 timeout : Nat) (s : State) : WaitEnd := readyWait (timeout - (s.nowMs.1 - t0)) s.nowMs.2

/-- A stage: what it waits for, then `act`, or the stage's code where the wait times out. -/
def stageThen (stage : State → WaitEnd) (c : Code) (act : State → Reply) (s : State) : Reply :=
  if (stage s).ready then act (stage s).st else ⟨c, 0, (stage s).st, (stage s).byFairness⟩

theorem stageThen_ready {stage : State → WaitEnd} {c : Code} {act : State → Reply} {s : State} (h : (stage s).ready = true) :
    stageThen stage c act s = act (stage s).st := if_pos h

theorem stageThen_timeout {stage : State → WaitEnd} {c : Code} {act : State → Reply} {s : State} (h : (stage s).ready = false) :
    stageThen stage c act s = ⟨c, 0, (stage s).st, (stage s).byFairness⟩ := if_neg (by simp [h])

theorem beginResetBody_of_method {s : State} (h : s.params.resetStrategy ≠ .none) :
    beginResetBody s = replyCode .ok s.afterReset := by
  cases hs : s.params.resetStrategy with
  | none => exact absurd hs h
  | controlPin => simp [beginResetBody, State.afterReset, hs, controlPinReset_eq, rearm_eq, Config.sentinel]
  | clockPin => simp [beginResetBody, State.afterReset, hs, clockPinReset_eq, rearm_eq, Config.sentinel]

theorem beginWriteSettingsBody_idle (timeout : Nat) {s : State} (h : s.phase = .idle) :
    beginWriteSettingsBody timeout s =
      waitThen timeout .notReadyToWriteSettings (fun u => replyCode .ok u.afterWrite) s := by
  simp only [beginWriteSettingsBody, writeBlock_eq]
  exact if_neg (by simp [h])

theorem readAndSettle_adopt (s : State) : readAndSettle 1 s = replyCode .ok s.afterRead := by
  rw [readAndSettle_eq, if_pos rfl]
  rfl

/-- The third wait and the adopting read. -/
theorem initRead_eq (t0 timeout : Nat) {s : State} (h : s.phase = .idle) :
    initRead t0 timeout s =
      stageThen (budgetWait t0 timeout) .notReadyToReadSettings (fun u => replyCode .ok u.afterRead) s := by
  simp only [← readAndSettle_adopt]
  exact if_neg (by simp [h])

/-- The second wait and the settings write, the second polling loop, then the read. -/
theorem initWriteAndRead_eq (t0 timeout : Nat) {s : State} (h : s.phase = .idle) :
    initWriteAndRead t0 timeout s =
      stageThen (budgetWait t0 timeout) .notReadyToWriteSettings
        (fun u => stageThen (pollUntilIdle t0 timeout) .timeoutWhileWritingSettings (initRead t0 timeout) u.afterWrite) s := by
  have hw := beginWriteSettingsBody_idle (timeout - (s.nowMs.1 - t0)) (s := s.nowMs.2) h
  simp only [initWriteAndRead, State.remaining, hw]
  cases hr : (budgetWait t0 timeout s).ready with
  | true =>
    rw [waitThen_ready _ _ _ _ hr, stageThen_ready hr]
    rfl
  | false =>
    rw [waitThen_timeout _ _ _ _ hr, stageThen_timeout hr]
    rfl

/-- Without a reset method, `BLOCKING_INIT` returns code 4 after its first reading. -/
theorem blockingInitBody_of_no_method (timeout : Nat) {s : State} (h : s.params.resetStrategy = .none) :
    blockingInitBody timeout s = replyCode .invalidResetMethod s.nowMs.2 := by
  have hb : beginResetBody s.nowMs.2 = replyCode .invalidResetMethod s.nowMs.2 := by
    rw [beginResetBody, show s.nowMs.2.params.resetStrategy = .none from h]
  simp [blockingInitBody, hb, replyCode]

/-- With one, it resets and polls for `Idle`, then writes and reads. -/
theorem blockingInitBody_of_method (timeout : Nat) {s : State} (h : s.params.resetStrategy ≠ .none) :
    blockingInitBody timeout s =
      stageThen (pollUntilIdle s.nowMs.1 timeout) .timeoutWhileResetting (initWriteAndRead s.nowMs.1 timeout)
        s.nowMs.2.afterReset := by
  have hb : beginResetBody s.nowMs.2 = replyCode .ok s.nowMs.2.afterReset := beginResetBody_of_method h
  simp only [blockingInitBody, hb]
  rfl

/-! ## What the stages leave unchanged (R33, R143) -/

theorem afterReset_polled (s : State) : s.afterReset.Polled := .inl rfl

theorem afterWrite_polled (s : State) : s.afterWrite.Polled := .inr rfl

theorem budgetWait_sameButInputs (t0 timeout : Nat) (s : State) : SameButInputs s (budgetWait t0 timeout s).st :=
  (nowFrom_sameButInputs 0 s).trans (readyWait_sameButInputs _ _)

/-- From `s` to `t` nothing changed but `STATE`, the trace and the environment, which keeps its fairness. -/
def SameButPhase (s t : State) : Prop := SameButInputs (s.enter t.phase) t

theorem SameButInputs.sameButPhase {s t : State} (h : SameButInputs s t) : SameButPhase s t := by
  have hp : t.phase = s.phase := by rw [h.1]
  rw [SameButPhase, hp]
  exact h

theorem budgetWait_sameButPhase (t0 timeout : Nat) (s : State) : SameButPhase s (budgetWait t0 timeout s).st :=
  (budgetWait_sameButInputs t0 timeout s).sameButPhase

theorem budgetWait_phase (t0 timeout : Nat) (s : State) : (budgetWait t0 timeout s).st.phase = s.phase := by
  rw [(budgetWait_sameButInputs t0 timeout s).1]

theorem pollUntilIdle_phase (t0 timeout : Nat) {s : State} (h : s.Polled) :
    (pollUntilIdle t0 timeout s).st.phase = if (pollUntilIdle t0 timeout s).ready = true then .idle else s.phase := by
  rw [(pollUntilIdle_pollEnds t0 timeout h).frame.1]
  rfl

theorem pollUntilIdle_idle {t0 timeout : Nat} {s : State} (h : s.Polled) (hr : (pollUntilIdle t0 timeout s).ready = true) :
    (pollUntilIdle t0 timeout s).st.phase = .idle := by
  rw [pollUntilIdle_phase t0 timeout h, if_pos hr]

theorem pollUntilIdle_sameButPhase (t0 timeout : Nat) {s : State} (h : s.Polled) :
    SameButPhase s (pollUntilIdle t0 timeout s).st := by
  rw [SameButPhase, pollUntilIdle_phase t0 timeout h]
  exact (pollUntilIdle_pollEnds t0 timeout h).frame

theorem SameButPhase.trans {s t u : State} (h : SameButPhase s t) (k : SameButPhase t u) : SameButPhase s u := by
  obtain ⟨ht, hf⟩ := h
  obtain ⟨hu, kf⟩ := k
  refine ⟨?_, kf.trans hf⟩
  rw [ht] at hu
  exact hu

theorem SameButPhase.params_eq {s t : State} (h : SameButPhase s t) : t.params = s.params := by rw [h.1]; rfl

theorem SameButPhase.chan_eq {s t : State} (h : SameButPhase s t) : t.chan = s.chan := by rw [h.1]; rfl

theorem SameButPhase.settingsBlock_eq {s t : State} (h : SameButPhase s t) : t.settingsBlock = s.settingsBlock :=
  SameButInputs.settingsBlock_eq (s := s.enter t.phase) h

/-! ## Stage by stage (R260) -/

/-- A body that ends with a code and no data leaves the machine as `State.returned` says, where its end needs no fairness or has it. -/
theorem hostOp_returned {w : CommandWord} {body : State → Reply} {s u : State} {c : Code} {byFairness : Bool}
    (h : body (s.log (.op w)) = ⟨c, 0, u, byFairness⟩) (hf : s.env.fair = true ∨ byFairness = false) :
    hostOp w body s = .next (u.returned c 0) := by
  rw [hostOp_next w body s (by rw [h]; exact hf), h]
  rfl

/-- Settles O52: each stage is a polling loop or a wait, and ends the operation with its code or hands its state to the next. -/
theorem blockingInitStages : Obligations.BlockingInitStages := by
  intro timeout s begun t0 left pulse reset p1 n1 w1 wrote p2 n2 w2 r failed
  refine ⟨fun hs => hostOp_returned (blockingInitBody_of_no_method _ hs) (.inr rfl), fun hs => ?_⟩
  have hw1 : SameButPhase reset w1.st :=
    (pollUntilIdle_sameButPhase _ _ (.inl rfl)).trans (budgetWait_sameButPhase t0 timeout.toNat p1.st)
  have hwrote : w1.st.afterWrite = wrote := by rw [State.afterWrite, hw1.settingsBlock_eq]; rfl
  have hw2 : SameButPhase wrote w2.st :=
    (pollUntilIdle_sameButPhase _ _ (.inr rfl)).trans (budgetWait_sameButPhase t0 timeout.toNat p2.st)
  have hresetting := blockingInitBody_of_method timeout.toNat (s := s.log (.op (hostWord 0x08 0 0 timeout))) hs
  have hwriteWait (hp1 : p1.ready = true) :=
    (hresetting.trans (stageThen_ready hp1)).trans (initWriteAndRead_eq _ _ (pollUntilIdle_idle (.inl rfl) hp1))
  have hwriting (hp1 : p1.ready = true) (hr1 : w1.ready = true) :=
    ((hwriteWait hp1).trans (stageThen_ready hr1)).trans (congrArg (stageThen _ _ _) hwrote)
  have hreadWait (hp1 : p1.ready = true) (hr1 : w1.ready = true) (hp2 : p2.ready = true) :=
    ((hwriting hp1 hr1).trans (stageThen_ready hp2)).trans (initRead_eq _ _ (pollUntilIdle_idle (.inr rfl) hp2))
  refine ⟨fun h => ?_, fun hp1 h => ?_, fun hp1 hr1 h => ?_, fun hp1 hr1 hp2 h => ?_, fun hp1 hr1 hp2 hr2 => ?_⟩
  · exact hostOp_returned (hresetting.trans (stageThen_timeout h.1)) h.2
  · exact hostOp_returned ((hwriteWait hp1).trans (stageThen_timeout h.1)) h.2
  · exact hostOp_returned ((hwriting hp1 hr1).trans (stageThen_timeout h.1)) h.2
  · exact hostOp_returned ((hreadWait hp1 hr1 hp2).trans (stageThen_timeout h.1)) h.2
  · have hdontCare : w2.st.params.dontCare = s.params.dontCare :=
      congrArg Params.dontCare (hw2.params_eq.trans hw1.params_eq)
    have hchan : w2.st.chan = s.chan := hw2.chan_eq.trans hw1.chan_eq
    have hok : exec (.blockingInit timeout) s = .next (w2.st.afterRead.returned .ok 0) :=
      hostOp_returned ((hreadWait hp1 hr1 hp2).trans (stageThen_ready hr2)) (.inr rfl)
    rw [State.afterRead, hdontCare, hchan] at hok
    exact hok

/-! ## No budget (R263) -/

/-- With no budget every reading has expired (R143 `GE`). -/
theorem expired_no_budget {s : State} (hc : s.params.waitCmp = .ge) (elapsed : Nat) : expired s.params.waitCmp elapsed 0 = true := by
  simp [hc, expired]

/-- From the beginning `t0` of a wait on, a reading with no budget needs no advance of the clock. -/
theorem waitOut_no_budget {t0 : Nat} {s : State} (hc : s.params.waitCmp = .ge) (ht : t0 ≤ s.env.now) :
    waitOut t0 0 s = ⟨false, s.nowMs.2, false⟩ := by
  simp [waitOut, deadline, hc, ht, State.nowMs, State.nowFrom]

theorem waitClock_no_budget {t0 : Nat} {s : State} (hc : s.params.waitCmp = .ge) (ht : t0 ≤ s.env.now) (pending : Nat) :
    waitClock t0 0 pending s = ⟨false, s.nowMs.2, false⟩ := by
  cases pending with
  | zero => exact waitOut_no_budget hc ht
  | succ pending => rw [waitClock_succ, if_pos (expired_no_budget hc _)]

theorem waitLoop_no_budget {t0 : Nat} {s : State} (hc : s.params.waitCmp = .ge) (ht : t0 ≤ s.env.now) (fuel : Nat) :
    (waitLoop t0 0 fuel s).byFairness = false := by
  induction fuel generalizing s with
  | zero => rw [waitLoop, waitClock_no_budget hc ht]
  | succ fuel ih =>
    rw [waitLoop_succ]
    split
    · split
      · rfl
      · exact ih hc ht
    · rw [if_pos (expired_no_budget hc _)]

theorem readyWait_no_budget {s : State} (hc : s.params.waitCmp = .ge) : (readyWait 0 s).byFairness = false :=
  waitLoop_no_budget (s := s.nowMs.2) hc (Nat.le_refl s.nowMs.1) _

/-- A first sample that is of the line and `LOW` comes before any test of the budget. -/
theorem readyWait_first_low (timeout : Nat) {s : State} {order : List Sample} {ready : List Level}
    (ho : s.env.order = .readyLine :: order) (hr : s.env.ready = .low :: ready) :
    (readyWait timeout s).ready = true ∧ (readyWait timeout s).st.trace = s.trace ++ [Event.now s.nowMs.1, .drdy .low] := by
  have hrounds : Config.freeLength s.nowMs.2.env.count + s.nowMs.2.env.order.length =
      Config.freeLength s.nowMs.2.env.count + order.length + 1 := by
    rw [show s.nowMs.2.env.order = s.env.order from rfl, ho]; rfl
  have hk : s.nowMs.2.chooseSample.1 = .readyLine := by simp [State.chooseSample, nowMs_eq, ho, drawn]
  have hl : s.nowMs.2.chooseSample.2.drdy.1 = .low := by simp [State.chooseSample, State.drdy, nowMs_eq, hr, drawn]
  have htr : s.nowMs.2.chooseSample.2.drdy.2.trace = s.trace ++ [Event.now s.nowMs.1, .drdy .low] := by
    rw [← hl]
    exact List.append_assoc s.trace [_] [_]
  simp only [readyWait, hrounds, waitLoop_succ, hk, hl]
  exact ⟨trivial, htr⟩

/-- A polling loop without budget ends after one `HIGH` sample and one reading, with or without fairness. -/
theorem pollUntilIdle_no_budget {t0 : Nat} {s : State} (h : s.Polled) (hc : s.params.waitCmp = .ge) (ht : t0 ≤ s.env.now)
    (hr : s.env.nextReady = .high) : pollUntilIdle t0 0 s = ⟨false, s.drdy.2.nowMs.2, false⟩ := by
  rw [pollUntilIdle]
  cases Config.freeLength s.env.count + s.env.ready.length + s.env.ticks.length with
  | zero => rw [pollLoop_zero_of_high t0 0 h hr, waitOut_no_budget (s := s.drdy.2) hc ht]
  | succ fuel => rw [pollLoop_succ_of_high t0 0 fuel h hr, if_pos (expired_no_budget hc _)]

/-! ## Which stage a code comes from (R112, R262) -/

theorem stageThen_code_ne {stage : State → WaitEnd} {c c' : Code} {act : State → Reply} {s : State} (hc : c ≠ c')
    (ha : (stage s).ready = true → (act (stage s).st).code ≠ c') : (stageThen stage c act s).code ≠ c' := by
  cases hr : (stage s).ready with
  | true => rw [stageThen_ready hr]; exact ha hr
  | false => rw [stageThen_timeout hr]; exact hc

/-- Once the reset has ended in `Idle`, no later stage returns code 5. -/
theorem initWriteAndRead_code_ne (t0 timeout : Nat) {s : State} (h : s.phase = .idle) :
    (initWriteAndRead t0 timeout s).code ≠ .timeoutWhileResetting := by
  rw [initWriteAndRead_eq t0 timeout h]
  refine stageThen_code_ne (by simp) fun _ => stageThen_code_ne (by simp) fun hp => ?_
  rw [initRead_eq t0 timeout (pollUntilIdle_idle (afterWrite_polled _) hp)]
  exact stageThen_code_ne (by simp) fun _ => by simp [replyCode]

theorem blockingInitBody_code_ne_of_low (timeout : Nat) {s : State} (hs : s.params.resetStrategy ≠ .none)
    (hr : s.nowMs.2.env.nextReady = .low) : (blockingInitBody timeout s).code ≠ .timeoutWhileResetting := by
  have hpoll : (pollUntilIdle s.nowMs.1 timeout s.nowMs.2.afterReset).ready = true := by
    rw [pollUntilIdle, pollLoop_of_low (s := s.nowMs.2.afterReset) _ _ _ (afterReset_polled _) hr]
  rw [blockingInitBody_of_method timeout hs, stageThen_ready hpoll]
  exact initWriteAndRead_code_ne _ _ (pollUntilIdle_idle (afterReset_polled _) hpoll)

theorem blockingInitBody_no_budget {s : State} (hs : s.params.resetStrategy ≠ .none) (hc : s.params.waitCmp = .ge)
    (hr : s.nowMs.2.env.nextReady = .high) :
    blockingInitBody 0 s = ⟨.timeoutWhileResetting, 0, s.nowMs.2.afterReset.drdy.2.nowMs.2, false⟩ := by
  have hpoll := pollUntilIdle_no_budget (t0 := s.nowMs.1) (afterReset_polled s.nowMs.2) hc (Nat.le_refl _) hr
  rw [blockingInitBody_of_method 0 hs, stageThen_timeout (by rw [hpoll]), hpoll]

theorem codeByte_eq_five_iff (c : Code) : codeByte c = 5 ↔ c = .timeoutWhileResetting := by
  cases c <;> decide

theorem resultWord_code_eq_five {c : Code} {d d' : BitVec 32} (h : resultWord c d = resultWord .timeoutWhileResetting d') :
    c = .timeoutWhileResetting := by
  obtain ⟨hlayout, -⟩ := resultWordLayout
  rw [← codeByte_eq_five_iff, ← (hlayout c d).1, h, (hlayout _ d').1]
  rfl

/-- What `BLOCKING_INIT` puts out is the word of its body's code. -/
theorem exec_blockingInit_results {timeout : BitVec 32} {s t : State} (h : exec (.blockingInit timeout) s = .next t) :
    ∃ d, t.results =
      s.results ++ [resultWord (blockingInitBody timeout.toNat (s.log (.op (hostWord 0x08 0 0 timeout)))).code d] := by
  obtain ⟨es, gs, hruns⟩ := blockingInitBody_runs timeout.toNat (s.log (.op (hostWord 0x08 0 0 timeout)))
  rw [hostOp_eq_next h, reply_results, hruns.results, log_results]
  exact ⟨_, rfl⟩

/-- Settles O54: without budget the first reading of a loop or wait has expired, but a sample comes before it. -/
theorem zeroBudgetCorners : Obligations.ZeroBudgetCorners := by
  refine ⟨?_, fun s order ready ho hr => readyWait_first_low 0 ho hr, fun s hc => readyWait_no_budget hc⟩
  intro s hs hc begun pulse
  constructor
  · intro hr
    have hexec : exec (.blockingInit 0) s = .next (begun.2.afterReset.drdy.2.nowMs.2.returned .timeoutWhileResetting 0) :=
      hostOp_returned (blockingInitBody_no_budget hs hc hr) (.inr rfl)
    refine ⟨_, begun.2.afterReset.drdy.2.nowMs.1, hexec, rfl, rfl, ?_⟩
    have hreset : begun.2.afterReset.trace =
        s.trace ++ [Event.op (hostWord 0x08 0 0 0)] ++ [Event.now begun.1] ++ (pulse ++ [.busBegin]) := rfl
    have hround : begun.2.afterReset.drdy.2.nowMs.2.trace =
        begun.2.afterReset.trace ++ [Event.drdy .high, .now begun.2.afterReset.drdy.2.nowMs.1] := highRound_trace 0 hr
    rw [State.returned, hround, hreset]
    simp only [List.append_assoc, List.cons_append, List.nil_append]
  · intro hr t h hcode
    obtain ⟨d, hd⟩ := exec_blockingInit_results h
    rw [hcode, List.append_cancel_left_eq, List.singleton_inj] at hd
    have hne := blockingInitBody_code_ne_of_low (0 : BitVec 32).toNat (s := s.log (.op (hostWord 0x08 0 0 0))) hs hr
    exact hne (resultWord_code_eq_five hd.symm)

/-! ## Readings and samples of a stage -/

/-- A run ends with its clock no earlier than it began (R74). -/
theorem Runs.onward {s t : State} {es : List Event} {gs : List (List Byte)} (h : Runs s t es gs) : s.env.now ≤ t.env.now := by
  have hc := h.clock
  rw [h.now]
  generalize clockReadings es = readings at hc
  cases hr : readings.getLast? with
  | none => simp [List.getLastD_eq_getLast?, hr]
  | some n =>
    rw [List.getLastD_eq_getLast?, hr]
    exact List.rel_of_pairwise_cons (List.isChain_iff_pairwise.1 hc) (List.mem_of_getLast? hr)

/-- A run whose last event is a reading ends with the clock there. -/
theorem Runs.now_of_last_reading {s t : State} {es : List Event} {gs : List (List Byte)} {n : Nat} (h : Runs s t es gs)
    (hl : es.getLast? = some (.now n)) : t.env.now = n := by
  obtain ⟨before, rfl⟩ := List.getLast?_eq_some_iff.1 hl
  rw [h.now]
  simp [clockReadings]

theorem readBytes_append (xs ys : List Event) : readBytes (xs ++ ys) = readBytes xs ++ readBytes ys := by
  induction xs with
  | nil => rfl
  | cons e xs ih => cases e <;> simp [readBytes, ih]

theorem bytes_of_samples {es : List Event} (h : ∀ e ∈ es, e.sample = true) : sentBytes es = [] ∧ readBytes es = [] := by
  induction es with
  | nil => exact ⟨rfl, rfl⟩
  | cons e es ih =>
    obtain ⟨he, hes⟩ := List.forall_mem_cons.1 h
    cases e with
    | drdy _ | now _ => exact ih hes
    | _ => cases he

theorem pollRounds_samples (waited : List Nat) : ∀ e ∈ pollRounds waited, e.sample = true := by
  simp only [pollRounds, List.mem_flatMap]
  rintro e ⟨t, -, he⟩
  fin_cases he <;> rfl

/-- A reading at which what was left of the budget at `n` has expired is one at which the overall budget has (R260, R262). -/
theorem expired_of_left {cmp : WaitCmp} {t0 n t1 t timeout : Nat} (h0 : t0 ≤ n) (h1 : n ≤ t1) (h2 : t1 ≤ t)
    (h : expired cmp (t - t1) (timeout - (n - t0)) = true) : expired cmp (t - t0) timeout = true := by
  cases cmp <;> simp [expired] at * <;> omega

/-! ## How a stage ends -/

/-- A stage that began in `s` took the samples `es`; where it timed out, the last is a reading at which the overall budget has expired. -/
structure StageEnds (t0 timeout : Nat) (s : State) (e : WaitEnd) (es : List Event) : Prop where
  frame   : SameButPhase s e.st
  runs    : ∃ gs, Runs s e.st es gs
  samples : ∀ x ∈ es, x.sample = true
  expired : e.ready = false → ∃ n, es.getLast? = some (.now n) ∧ expired s.params.waitCmp (n - t0) timeout = true

theorem pollUntilIdle_stageEnds (t0 timeout : Nat) {s : State} (h : s.Polled) :
    ∃ es, StageEnds t0 timeout s (pollUntilIdle t0 timeout s) es := by
  obtain ⟨es, gs, hruns⟩ := pollLoop_runs t0 timeout (Config.freeLength s.env.count + s.env.ready.length + s.env.ticks.length) s
  obtain ⟨waited, -, hready, hexpired⟩ := (pollUntilIdle_pollEnds t0 timeout h).rounds
  have hrounds := pollRounds_samples waited
  refine ⟨es, pollUntilIdle_sameButPhase t0 timeout h, ⟨gs, hruns⟩, ?_, fun hr => ?_⟩
  · cases hr : (pollUntilIdle t0 timeout s).ready with
    | true =>
      rw [List.append_cancel_left (hruns.trace.symm.trans (hready hr)), List.forall_mem_append]
      exact ⟨hrounds, by simp [Event.sample]⟩
    | false =>
      obtain ⟨t, -, htr⟩ := hexpired hr
      rw [List.append_cancel_left (hruns.trace.symm.trans htr), List.forall_mem_append]
      exact ⟨hrounds, by simp [Event.sample]⟩
  · obtain ⟨t, hx, htr⟩ := hexpired hr
    rw [List.append_cancel_left (hruns.trace.symm.trans htr)]
    exact ⟨t, by simp, hx⟩

theorem budgetWait_stageEnds {t0 : Nat} (timeout : Nat) {s : State} (ht : t0 ≤ s.env.now) :
    ∃ es, StageEnds t0 timeout s (budgetWait t0 timeout s) es := by
  let left := timeout - (s.nowMs.1 - t0)
  let u := s.nowMs.2.nowMs.2
  obtain ⟨es, hloop, hsamples⟩ := waitLoop_runs s.nowMs.2.nowMs.1 left (Config.freeLength u.env.count + u.env.order.length) u
  have hleft := nowFrom_runs 0 s
  have hbegin := nowFrom_runs 0 s.nowMs.2
  obtain ⟨before, last, htr, -, -, hlast⟩ := readyWait_endsFrom left s.nowMs.2
  refine ⟨_, budgetWait_sameButPhase t0 timeout s, ⟨_, (hleft.trans hbegin).trans hloop⟩, ?_, fun hr => ?_⟩
  · rw [List.forall_mem_append]
    exact ⟨by simp [Event.sample], hsamples⟩
  · obtain ⟨t, rfl, hx⟩ := hlast hr
    have hes : es.getLast? = some (.now t) := by
      rw [List.append_cancel_left (hloop.trace.symm.trans htr)]
      simp
    have hend : u.env.now ≤ t := (hloop.now_of_last_reading hes) ▸ hloop.onward
    exact ⟨t, by rw [List.getLast?_append, hes]; rfl, expired_of_left (ht.trans hleft.onward) hbegin.onward hend hx⟩

/-! ## What `BLOCKING_INIT` has done so far (R260, R262) -/

/-- From `s`, which has read `t0`, `BLOCKING_INIT` has come to `u` by `events`: the reset first, then `sent` and no byte read. -/
structure InitPath (s u : State) (events : List Event) (sent : List Byte) : Prop where
  frame  : u = { s with
    trace := s.trace ++ events
    phase := u.phase
    curMux := 0xFF
    rstLvl := .high
    csLvl := u.csLvl
    busOn := true
    busHeld := u.busHeld
    env := u.env }
  reset  : ((if s.params.resetStrategy = .controlPin then controlPulseEvents else clockPulseEvents) ++ [.busBegin]) <+: events
  sent   : sentBytes events = sent
  unread : readBytes events = []
  onward : s.env.now ≤ u.env.now

/-- The bytes of the settings write (R190, R213). -/
def State.writeBytes (s : State) : List Byte :=
  [0x50, 0x03, s.settingsBlock.status, s.settingsBlock.mux, s.settingsBlock.adcon, s.settingsBlock.drate]

theorem initPath_afterReset (s : State) : ∃ events, InitPath s s.afterReset events [] := by
  refine ⟨_, rfl, List.prefix_rfl, ?_, ?_, Nat.le_refl _⟩ <;> split <;> rfl

theorem InitPath.settingsBlock_eq {s u : State} {events : List Event} {sent : List Byte} (h : InitPath s u events sent) :
    u.settingsBlock = s.settingsBlock := by
  rw [h.frame]
  rfl

theorem InitPath.afterWrite {s u : State} {events : List Event} (h : InitPath s u events []) :
    InitPath s u.afterWrite (events ++ writeBlockEvents s.settingsBlock) s.writeBytes where
  frame := by
    rw [State.afterWrite, h.settingsBlock_eq, h.frame]
    simp
  reset := h.reset.trans (List.prefix_append _ _)
  sent := by rw [sentBytes_append, h.sent]; rfl
  unread := by rw [readBytes_append, h.unread]; rfl
  onward := h.onward

theorem InitPath.stage {s u : State} {events es : List Event} {sent : List Byte} {timeout : Nat} {e : WaitEnd}
    (h : InitPath s u events sent) (he : StageEnds s.env.now timeout u e es) : InitPath s e.st (events ++ es) sent where
  frame := by
    obtain ⟨gs, hruns⟩ := he.runs
    have hst := he.frame.1
    have hcs : e.st.csLvl = u.csLvl := by rw [hst]; rfl
    have hheld : e.st.busHeld = u.busHeld := by rw [hst]; rfl
    rw [hcs, hheld]
    rw [hruns.trace, h.frame] at hst
    simpa using hst
  reset := h.reset.trans (List.prefix_append _ _)
  sent := by rw [sentBytes_append, h.sent, (bytes_of_samples he.samples).1, List.append_nil]
  unread := by rw [readBytes_append, h.unread, (bytes_of_samples he.samples).2, List.append_nil]
  onward := by
    obtain ⟨gs, hruns⟩ := he.runs
    exact h.onward.trans hruns.onward

/-- The last event is a reading at which the overall budget from `t0` has expired. -/
def BudgetSpent (cmp : WaitCmp) (t0 timeout : Nat) (events : List Event) : Prop :=
  ∃ n, t0 ≤ n ∧ events.getLast? = some (.now n) ∧ expired cmp (n - t0) timeout = true

theorem InitPath.budgetSpent {s u : State} {events es : List Event} {sent : List Byte} {timeout : Nat} {e : WaitEnd}
    (h : InitPath s u events sent) (he : StageEnds s.env.now timeout u e es) (hr : e.ready = false) :
    BudgetSpent s.params.waitCmp s.env.now timeout (events ++ es) := by
  obtain ⟨gs, hruns⟩ := he.runs
  obtain ⟨n, hl, hx⟩ := he.expired hr
  have hn : s.env.now ≤ n := hruns.now_of_last_reading hl ▸ h.onward.trans hruns.onward
  have hp : u.params = s.params := by rw [h.frame]
  exact ⟨n, hn, by simp [hl], hp ▸ hx⟩

/-- The rows of R262 for the codes of a timeout: the code, the `STATE` it leaves, the bytes sent. -/
inductive TimeoutRow (wrote : List Byte) : Code → Phase → List Byte → Prop
  | reset : TimeoutRow wrote .timeoutWhileResetting .resetting []
  | writeWait : TimeoutRow wrote .notReadyToWriteSettings .idle []
  | write : TimeoutRow wrote .timeoutWhileWritingSettings .writingSettings wrote
  | readWait : TimeoutRow wrote .notReadyToReadSettings .idle wrote

/-- How `BLOCKING_INIT` ends after its reset: in a timeout's row with the budget spent, or with the adopting read. -/
inductive InitEnds (timeout : Nat) (s : State) : Reply → Prop
  | timedOut {u : State} {events : List Event} {sent : List Byte} {c : Code} {byFairness : Bool} :
      InitPath s u events sent → BudgetSpent s.params.waitCmp s.env.now timeout events →
      TimeoutRow s.writeBytes c u.phase sent → InitEnds timeout s ⟨c, 0, u, byFairness⟩
  | done {u : State} {events : List Event} :
      InitPath s u events s.writeBytes → u.phase = .idle → InitEnds timeout s (replyCode .ok u.afterRead)

/-- A stage times out in its row, or what follows it ends. -/
theorem InitPath.stageThen {s u : State} {events es : List Event} {sent : List Byte} {timeout : Nat} {stage : State → WaitEnd}
    {c : Code} {act : State → Reply} (h : InitPath s u events sent) (he : StageEnds s.env.now timeout u (stage u) es)
    (hc : (stage u).ready = false → TimeoutRow s.writeBytes c (stage u).st.phase sent)
    (ha : (stage u).ready = true → InitEnds timeout s (act (stage u).st)) :
    InitEnds timeout s (Machine.stageThen stage c act u) := by
  cases hr : (stage u).ready with
  | true => rw [stageThen_ready hr]; exact ha hr
  | false => rw [stageThen_timeout hr]; exact .timedOut (h.stage he) (h.budgetSpent he hr) (hc hr)

theorem initRead_ends (timeout : Nat) {s u : State} {events : List Event} (h : InitPath s u events s.writeBytes)
    (hu : u.phase = .idle) : InitEnds timeout s (initRead s.env.now timeout u) := by
  obtain ⟨es, hw⟩ := budgetWait_stageEnds timeout h.onward
  have hidle : (budgetWait s.env.now timeout u).st.phase = .idle := (budgetWait_phase _ _ _).trans hu
  rw [initRead_eq _ _ hu]
  refine h.stageThen hw (fun _ => ?_) fun _ => .done (h.stage hw) hidle
  rw [hidle]
  exact .readWait

theorem initWriteAndRead_ends (timeout : Nat) {s u : State} {events : List Event} (h : InitPath s u events [])
    (hu : u.phase = .idle) : InitEnds timeout s (initWriteAndRead s.env.now timeout u) := by
  obtain ⟨es, hw⟩ := budgetWait_stageEnds timeout h.onward
  rw [initWriteAndRead_eq _ _ hu]
  refine h.stageThen hw (fun _ => ?_) fun _ => ?_
  · rw [budgetWait_phase, hu]
    exact .writeWait
  · have hwrite := (h.stage hw).afterWrite
    have hpolled := afterWrite_polled (budgetWait s.env.now timeout u).st
    obtain ⟨es', hp⟩ := pollUntilIdle_stageEnds s.env.now timeout hpolled
    refine hwrite.stageThen hp (fun hr => ?_) fun hr => initRead_ends timeout (hwrite.stage hp) (pollUntilIdle_idle hpolled hr)
    rw [pollUntilIdle_phase _ _ hpolled, if_neg (by simp [hr])]
    exact .write

theorem blockingInitBody_ends (timeout : Nat) {s : State} (hs : s.params.resetStrategy ≠ .none) :
    InitEnds timeout s.nowMs.2 (blockingInitBody timeout s) := by
  have hpolled := afterReset_polled s.nowMs.2
  obtain ⟨events, hreset⟩ := initPath_afterReset s.nowMs.2
  obtain ⟨es, hp⟩ := pollUntilIdle_stageEnds s.nowMs.1 timeout hpolled
  rw [blockingInitBody_of_method timeout hs]
  refine hreset.stageThen hp (fun hr => ?_) fun hr =>
    initWriteAndRead_ends timeout (hreset.stage hp) (pollUntilIdle_idle hpolled hr)
  rw [pollUntilIdle_phase _ _ hpolled, if_neg (by simp [hr])]
  exact .reset

/-! ## The outcomes (R262) -/

/-- Without a reset method, code 4 after the reading `t0` and nothing else. -/
theorem exec_blockingInit_of_no_method (timeout : BitVec 32) {s : State} (hs : s.params.resetStrategy = .none) :
    exec (.blockingInit timeout) s =
      .next ((s.log (.op (hostWord 0x08 0 0 timeout))).nowMs.2.returned .invalidResetMethod 0) :=
  hostOp_returned (blockingInitBody_of_no_method _ hs) (.inr rfl)

/-- What `RET` adds to the trace of an operation that has logged its word, read `t0` and gone on by `events`. -/
theorem returned_trace {s u : State} {w : CommandWord} {events : List Event} (c : Code) (d : BitVec 32)
    (h : u.trace = (s.log (.op w)).nowMs.2.trace ++ events) :
    (u.returned c d).trace = s.trace ++ Event.op w :: .now (s.log (.op w)).nowMs.1 :: (events ++ [.ret c d]) := by
  have hbegun : (s.log (.op w)).nowMs.2.trace = s.trace ++ [Event.op w] ++ [Event.now (s.log (.op w)).nowMs.1] := rfl
  rw [State.returned, h, hbegun]
  simp only [List.append_assoc, List.cons_append, List.nil_append]

/-- The elements of R51 that `BLOCKING_INIT` never writes (R33). -/
theorem exec_blockingInit_keeps {timeout : BitVec 32} {s t : State} (h : exec (.blockingInit timeout) s = .next t) :
    t.nextMux = s.nextMux ∧ t.result = s.result ∧ t.wr = s.wr ∧ t.newData = s.newData ∧ t.oos = s.oos := by
  have hw := exec_writes h
  exact ⟨hw.kept .nextMux (by simp [writeList]), hw.kept .result (by simp [writeList]), hw.kept .wr (by simp [writeList]),
    hw.kept .newData (by simp [writeList]), hw.kept .oos (by simp [writeList])⟩

theorem TimeoutRow.ne_ok {wrote sent : List Byte} {c : Code} {p : Phase} (h : TimeoutRow wrote c p sent) : c ≠ .ok := by
  cases h <;> decide

/-- A timeout's row as the table of R262 lists it, before the row of code 0. -/
theorem TimeoutRow.listed {wrote sent : List Byte} {c : Code} {p : Phase} (h : TimeoutRow wrote c p sent) :
    (c = .timeoutWhileResetting ∧ p = .resetting ∧ sent = []) ∨
      (c = .notReadyToWriteSettings ∧ p = .idle ∧ sent = []) ∨
      (c = .timeoutWhileWritingSettings ∧ p = .writingSettings ∧ sent = wrote) ∨
      (c = .notReadyToReadSettings ∧ p = .idle ∧ sent = wrote) ∨
      (c = .ok ∧ p = .idle ∧ sent = wrote ++ [0x10, 0x03]) := by
  cases h <;> simp

theorem InitPath.elements {s u : State} {events : List Event} {sent : List Byte} (h : InitPath s u events sent) :
    u.trace = s.trace ++ events ∧ u.results = s.results ∧ u.cfg = s.cfg ∧ u.chan = s.chan ∧ u.curMux = 0xFF ∧ u.busOn = true := by
  rw [h.frame]
  exact ⟨rfl, rfl, rfl, rfl, rfl, rfl⟩

/-- The bytes sent and read by the adopting read (R191, R215). -/
theorem bytes_of_readBlock (dontCare : Byte) (e : Env) :
    sentBytes (readBlockEvents dontCare e) = [0x10, 0x03] ∧
      readBytes (readBlockEvents dontCare e) = [e.nextBlock.status, e.nextBlock.mux, e.nextBlock.adcon, e.nextBlock.drate] :=
  ⟨rfl, rfl⟩

/-- Settles O43: each way `BLOCKING_INIT` ends is a row of R262's table, with that row's bytes and `STATE`. -/
theorem blockingInitOutcomes : Obligations.BlockingInitOutcomes := by
  intro timeout s hfair b wrote pulse
  by_cases hs : s.params.resetStrategy = .none
  · have hexec := exec_blockingInit_of_no_method timeout hs
    obtain ⟨hnext, hresult, hwr, hnew, hoos⟩ := exec_blockingInit_keeps hexec
    let u := (s.log (.op (hostWord 0x08 0 0 timeout))).nowMs.2
    have htrace : u.trace = u.trace ++ [] := (List.append_nil _).symm
    have hkept : Writes [] s (u.returned .invalidResetMethod 0) :=
      (((log_sameElements _ s).writes []).trans ((nowFrom_sameButInputs 0 _).writes [])).trans
        ((reply_sameElements .invalidResetMethod 0 u).writes [])
    exact ⟨_, .invalidResetMethod, _, [], hexec, rfl, returned_trace _ 0 htrace, hnext, hresult, hwr, hnew, hoos,
      fun _ => ⟨hkept.kept .cfg (by simp), hkept.kept .chan (by simp)⟩,
      fun _ => ⟨rfl, rfl, hkept.kept .phase (by simp), hkept.kept .curMux (by simp)⟩, fun hm => absurd hs hm⟩
  · have hends := blockingInitBody_ends timeout.toNat (s := s.log (.op (hostWord 0x08 0 0 timeout))) hs
    generalize hbody : blockingInitBody timeout.toNat (s.log (.op (hostWord 0x08 0 0 timeout))) = e at hends
    cases hends with
    | @timedOut u events sent c byFairness hpath hspent hrow =>
      have hexec : exec (.blockingInit timeout) s = .next (u.returned c 0) := hostOp_returned hbody (.inl hfair)
      obtain ⟨hnext, hresult, hwr, hnew, hoos⟩ := exec_blockingInit_keeps hexec
      obtain ⟨htrace, hresults, hcfg, hchan, hcur, hon⟩ := hpath.elements
      refine ⟨u.returned c 0, c, _, events, hexec, congrArg (· ++ _) hresults, returned_trace c 0 htrace, hnext, hresult, hwr, hnew,
        hoos, fun _ => ⟨hcfg, hchan⟩, fun hm => absurd hm hs, fun _ => ⟨hcur, hon, hpath.reset, fun _ => ⟨hpath.unread, hspent⟩,
        fun hok => absurd hok hrow.ne_ok, ?_⟩⟩
      rw [← hpath.sent] at hrow
      exact hrow.listed
    | @done u events hpath hidle =>
      have hexec : exec (.blockingInit timeout) s = .next (u.afterRead.returned .ok 0) := hostOp_returned hbody (.inl hfair)
      obtain ⟨hnext, hresult, hwr, hnew, hoos⟩ := exec_blockingInit_keeps hexec
      obtain ⟨htrace, hresults, hcfg, hchan, hcur, hon⟩ := hpath.elements
      obtain ⟨hsent, hread⟩ := bytes_of_readBlock u.params.dontCare u.env
      have htrace' : u.afterRead.trace = _ := (congrArg (· ++ _) htrace).trans (List.append_assoc _ _ _)
      refine ⟨u.afterRead.returned .ok 0, .ok, _, events ++ readBlockEvents u.params.dontCare u.env, hexec,
        congrArg (· ++ _) hresults, returned_trace .ok 0 htrace', hnext, hresult, hwr, hnew, hoos, fun h => absurd rfl h,
        fun hm => absurd hm hs, fun _ => ⟨hcur, hon, hpath.reset.trans (List.prefix_append _ _), fun h => absurd rfl h, fun _ =>
        ⟨u.env.nextBlock, ?_, rfl, congrArg (List.set · 0 _) hchan⟩, .inr (.inr (.inr (.inr ⟨rfl, hidle, ?_⟩)))⟩⟩
      · rw [readBytes_append, hpath.unread, hread]
        rfl
      · rw [sentBytes_append, hpath.sent, hsent]
        rfl

end Sys2Proof.Machine

/-! The family of spec/46_accessors.md: the host accessors `RDREG`, `WRREG`, `RDCHAN`, `WRCHAN`, `RDRES` and `TAKE_NEW_DATA` (R270 to R275).
Each runs a body without a wait that leaves the bus alone, or is refused. -/

namespace Sys2Proof.Machine

/-! ## How an accessor ends (R146) -/

/-- `hostOp_ran` for a body that sends nothing and may answer data: its operation adds `OP` and `RET` to what the body leaves (R146). -/
theorem hostOp_ran_of_reply {w : CommandWord} {body : State → Reply} {s t : State} {c : Code} {d : BitVec 32}
    (h : body (s.log (.op w)) = ⟨c, d, t.log (.op w), false⟩) : hostOp w body s = .next (t.ran w [] c d) := by
  rw [hostOp_next w body s (.inr (by rw [h])), h]
  simp [State.reply, State.log, State.ran]

/-- Settles O48: the body reads the marker before it clears it, and is framed under the one word of `TAKE_NEW_DATA`. -/
theorem takeNewDataReadsAndClears : Obligations.TakeNewDataReadsAndClears := by
  intro s
  have hword : (0x1500000000000000 : CommandWord) = hostWord 0x15 0 0 0 := by decide
  rw [exec, execTakeNewData, hword, BitVec.ofNat_toNat]
  exact hostOp_ran_of_reply rfl

/-! ## The selectors (R116, R270, R271) -/

/-- The elements the host can select, in the order of their selectors (R116). -/
def State.elementValues (s : State) : List Nat :=
  [(phaseCode s.phase).toNat, s.cfg.order.toNat, s.cfg.acal.toNat, s.cfg.bufen.toNat, s.cfg.clkout.toNat, s.cfg.sdcs.toNat,
    s.cfg.pga.toNat, s.cfg.drate.toNat, s.oos.toNat, s.nextMux.toNat, s.curMux.toNat, s.newData.toNat, s.params.n.toNat]

/-- The selector map is a lookup in that list, zero-extended. -/
theorem element_eq_lookup (s : State) (sel : BitVec 8) : s.element sel = s.elementValues[sel.toNat]?.map (BitVec.ofNat 32) := by
  by_cases hsel : sel.toNat < 13
  · simp only [State.element, State.elementValues]
    generalize sel.toNat = k at hsel
    interval_cases k <;> simp
  · have hreserved : 13 ≤ sel.toNat := Nat.le_of_not_lt hsel
    rw [(element_none_iff sel s).2 hreserved, List.getElem?_eq_none hreserved, Option.map_none]

theorem exec_rdreg_of_element {sel : BitVec 8} {v : BitVec 32} {s : State} (h : s.element sel = some v) :
    exec (.rdreg sel) s = .next (s.ran (hostWord 0x10 sel 0 0) [] .ok v) := by
  rw [exec, execRdreg, h]
  exact hostOp_ran_of_reply rfl

/-- Settles O44: the selector looks its element up in the list, and one past the list's end is refused. -/
theorem rdregReturnsTheElement : Obligations.RdregReturnsTheElement := by
  refine fun s sel => ⟨fun v hv => exec_rdreg_of_element ?_, fun hsel => exec_refused (decodeInvertsEncode (.rdreg sel) rfl) hsel, rfl⟩
  rw [element_eq_lookup, State.elementValues, hv, Option.map_some]

/-- A write to an element is independent of the event logged before it. -/
theorem setElement_log (sel val : BitVec 8) (e : Event) (s : State) : (s.log e).setElement sel val = (s.setElement sel val).log e := by
  unfold State.setElement
  split <;> rfl

/-- A value that fits the width of its writable selector is stored, and the operation returns code 0 (R117, R271). -/
theorem exec_wrreg_of_fits {sel val : BitVec 8} {width : Nat} {s : State} (hsel : writableWidth sel = some width)
    (hval : val.toNat < 2 ^ width) :
    exec (.wrreg sel val) s = .next ((s.setElement sel val).ran (hostWord 0x11 sel val 0) [] .ok 0) := by
  have hlegal : writeLegal sel val = true := by simp [writeLegal, hsel, hval]
  rw [exec, execWrreg, if_pos hlegal]
  exact hostOp_ran_of_reply (by rw [setElement_log, replyCode])

/-- Settles O45: each writable selector has its width and its element, and every other write is a refused operand. -/
theorem wrregWritesOneElement : Obligations.WrregWritesOneElement :=
  fun _ val => ⟨exec_wrreg_of_fits (width := 1) rfl, exec_wrreg_of_fits (width := 1) rfl, exec_wrreg_of_fits (width := 1) rfl,
    exec_wrreg_of_fits (width := 2) rfl, exec_wrreg_of_fits (width := 2) rfl, exec_wrreg_of_fits (width := 3) rfl,
    exec_wrreg_of_fits (width := 8) rfl val.isLt, exec_wrreg_of_fits (width := 1) rfl,
    fun sel => exec_refused (decodeInvertsEncode (.wrreg sel val) rfl)⟩

/-! ## The tables (R71, R72, R272 to R274) -/

theorem validIndex_iff (s : State) (idx : BitVec 8) : s.validIndex idx = true ↔ idx.toNat < s.params.n.toNat := by
  simp [State.validIndex, BitVec.lt_def]

theorem chan_getElem?_eq_chanAt {s : State} {idx : BitVec 8} (h : idx.toNat < s.chan.length) :
    s.chan[idx.toNat]? = some (s.chanAt idx) := by
  simp [State.chanAt, h]

theorem result_getElem?_eq_resultAt {s : State} {idx : BitVec 8} (h : idx.toNat < s.result.length) :
    s.result[idx.toNat]? = some (s.resultAt idx) := by
  simp [State.resultAt, h]

/-- Settles O46: under the invariant the table has `N` entries, so a valid index names one; any other is a refused operand. -/
theorem channelTableAccess : Obligations.ChannelTableAccess := by
  intro s idx val hinv
  refine ⟨fun hidx => ?_, fun hidx => ⟨exec_refused (decodeInvertsEncode (.rdchan idx) rfl) hidx,
    exec_refused (decodeInvertsEncode (.wrchan idx val) rfl) hidx⟩⟩
  have hvalid : s.validIndex idx = true := (validIndex_iff s idx).2 hidx
  obtain ⟨hlen, -, -⟩ := (wf_iff s).1 hinv.tables
  refine ⟨⟨s.chanAt idx, chan_getElem?_eq_chanAt (hlen ▸ hidx), ?_⟩, ?_⟩
  · rw [exec, execRdchan, if_pos hvalid, BitVec.ofNat_toNat]
    exact hostOp_ran_of_reply rfl
  · rw [exec, execWrchan, if_pos hvalid]
    exact hostOp_ran_of_reply rfl

/-- Settles O47: a valid index names a slot, whose written bit tells its value from the fault mark; any other is a refused operand. -/
theorem resultBufferRead : Obligations.ResultBufferRead := by
  intro s idx hinv word
  obtain ⟨-, hlen, -⟩ := (wf_iff s).1 hinv.tables
  refine ⟨fun hidx hwritten => ⟨s.resultAt idx, result_getElem?_eq_resultAt (hlen ▸ hidx), ?_⟩, fun hidx hunwritten => ?_,
    fun hidx => exec_refused (decodeInvertsEncode (.rdres idx) rfl) hidx⟩
  · rw [exec, execRdres, if_pos ((validIndex_iff s idx).2 hidx), if_pos hwritten]
    exact hostOp_ran_of_reply rfl
  · rw [exec, execRdres, if_pos ((validIndex_iff s idx).2 hidx), if_neg (by simp [hunwritten])]
    rfl

end Sys2Proof.Machine

/-! The family of spec/60_exceptions.md and spec/70_reset_and_hazards.md: which instructions set a mark (R302), and what each element holds
after construction and after a `BEGIN_RESET` with a reset method (R331). -/

namespace Sys2Proof.Machine

/-! ## The marks (R118, R274, R302) -/

/-- An unwritten slot is a slot of the table, so its read is not a refused operand. -/
theorem not_refusedIn_of_readsUnwritten {i : Instr} {s : State} (h : i.readsUnwritten s) : ¬ i.refusedIn s := by
  cases i with
  | rdres idx =>
    obtain ⟨hidx, -⟩ := h
    exact Nat.not_le.2 hidx
  | _ => exact False.elim h

/-- A bus command has no operand to refuse and reads no result slot. -/
theorem bus_not_refusedIn_not_readsUnwritten {i : Instr} (s : State) (hi : i.isHost = false) :
    ¬ i.refusedIn s ∧ ¬ i.readsUnwritten s := by
  cases i with
  | wreg _ _ _ | rreg _ _ | sync | wakeup | rdata => exact ⟨id, id⟩
  | _ => cases hi

/-- From `s` to `t` instruction `i` sets the refused mark exactly where it is refused, the fault mark exactly where it reads an unwritten
slot, and clears neither. -/
def MarksSet (i : Instr) (s t : State) : Prop :=
  (t.refused = true ↔ s.refused = true ∨ i.refusedIn s) ∧ (t.faulted = true ↔ s.faulted = true ∨ i.readsUnwritten s)

/-- An instruction that gives no cause for a mark leaves both as they were. -/
theorem marksSet_of_kept {i : Instr} {s t : State} (hr : ¬ i.refusedIn s) (hu : ¬ i.readsUnwritten s)
    (h : t.refused = s.refused ∧ t.faulted = s.faulted) : MarksSet i s t := by
  obtain ⟨href, hflt⟩ := h
  simp [MarksSet, href, hflt, hr, hu]

theorem marksSet_refuse {i : Instr} {s : State} (hr : i.refusedIn s) (w : CommandWord) : MarksSet i s (s.refuse w) := by
  have hu : ¬ i.readsUnwritten s := fun hu => not_refusedIn_of_readsUnwritten hu hr
  simp [MarksSet, hr, hu]

theorem marksSet_markFault {i : Instr} {s : State} (hu : i.readsUnwritten s) (w : CommandWord) : MarksSet i s (s.markFault w) := by
  have hr : ¬ i.refusedIn s := not_refusedIn_of_readsUnwritten hu
  simp [MarksSet, hr, hu]

/-- A framed body writes no mark, and neither does its frame (R146). -/
theorem hostOp_keeps_marks {w : CommandWord} {body : State → Reply} {s t : State} (h : hostOp w body s = .next t)
    (hb : ∃ es gs, Runs (s.log (.op w)) (body (s.log (.op w))).st es gs) : t.refused = s.refused ∧ t.faulted = s.faulted := by
  obtain ⟨es, gs, hruns⟩ := hb
  rw [hostOp_eq_next h]
  exact hruns.marks

/-- Settles O9: of the three ways a host operation runs, the refusal and the unwritten read each set their own mark; a framed body and a bus
command set none. -/
theorem marksAreSetExactlyAndNeverCleared : Obligations.MarksAreSetExactlyAndNeverCleared := by
  intro i s t h
  change MarksSet i s t
  cases hi : i.isHost with
  | false =>
    obtain ⟨u, es, hexec, -, -, -, -, he⟩ := exec_bus_next i s hi
    cases hexec.symm.trans h
    obtain ⟨hnr, hnu⟩ := bus_not_refusedIn_not_readsUnwritten s hi
    exact marksSet_of_kept hnr hnu (by rw [he]; exact ⟨rfl, rfl⟩)
  | true =>
    obtain ⟨w, -, ⟨hr, he⟩ | ⟨-, hu, he⟩ | ⟨hnr, hnu, body, he, hb⟩⟩ := exec_host_cases i s hi
    · cases he.symm.trans h
      exact marksSet_refuse hr w
    · cases he.symm.trans h
      exact marksSet_markFault hu w
    · exact marksSet_of_kept hnr hnu (hostOp_keeps_marks (he.symm.trans h) (hb _))

/-! ## The elements after construction and after `BEGIN_RESET` (R331) -/

/-- No slot is written after construction, and none beyond the table reads as written (R40, R51). -/
theorem construct_writtenAt (p : Params) (cfg : Settings) (chan : List Byte) (oos : BitVec 1) (i : BitVec 8) :
    (State.construct p cfg chan oos).writtenAt i = false := by
  by_cases hi : i.toNat < p.n.toNat <;> simp [State.writtenAt, State.construct, hi]

/-- `BEGIN_RESET` with a reset method runs the reset of `State.afterReset` in the frame of an operation and returns code 0 (R146, R170). -/
theorem exec_beginReset_of_method {s : State} (h : s.params.resetStrategy ≠ .none) :
    exec .beginReset s = .next ((s.log (.op (hostWord 0x01 0 0 0))).afterReset.reply .ok 0) := by
  have hb : beginResetBody (s.log (.op (hostWord 0x01 0 0 0))) = replyCode .ok (s.log (.op (hostWord 0x01 0 0 0))).afterReset :=
    beginResetBody_of_method h
  rw [exec, execBeginReset, hostOp_next _ _ _ (.inr (by rw [hb]; rfl)), hb]
  rfl

/-- A chip-select at rest stays at rest: the control pin leaves it alone and the clock pin drives it `HIGH` (R171, R172). -/
theorem afterReset_csLvl {s : State} (h : s.csLvl = .high) : s.afterReset.csLvl = .high := by
  simp [State.afterReset, h]

/-- Settles O14: `State.construct` gives the first column of R331, and `State.afterReset` writes only what the second column lists. -/
theorem elementsAfterConstructionAndReset : Obligations.ElementsAfterConstructionAndReset := by
  refine ⟨fun p cfg chan oos => ?_, fun s hmethod hcs hsync hheld => ?_⟩
  · exact ⟨rfl, rfl, rfl, rfl, rfl, rfl, rfl, rfl, List.length_replicate, List.length_replicate, construct_writtenAt p cfg chan oos,
      rfl, rfl, rfl, rfl, rfl, rfl, rfl, rfl⟩
  · exact ⟨_, exec_beginReset_of_method hmethod, rfl, rfl, rfl, rfl, rfl, rfl, rfl, rfl, rfl, afterReset_csLvl hcs, hsync, rfl, rfl, hheld⟩

end Sys2Proof.Machine
